-- ==== Sys2Proof/Word.lean ====
section
/-! DEFINITION. The two word types of the block (00_scope.md R9, R11): a byte and a 16-bit address. Every other helper on
bits stands in Machine/Bits.lean. -/

namespace Sys2Proof

/-- A byte: registers A, X, Y, SP and P, every memory cell and every bus transfer (R9). -/
abbrev Byte := BitVec 8

/-- A 16-bit address: PC and every bus address (R9). -/
abbrev Addr := BitVec 16

end Sys2Proof
end

