-- ==== Sys2Proof/Config.lean ====
section
/-! DEFINITION. What is fixed for one machine: the addresses the block itself gives a meaning to (20_memory.md R211) and the
host's parameters INIT_REGS and INIT_MEM (00_scope.md R10) at the values log entries 1 and 2 name. They are
the arguments of `State.initial`. The parameters DEC_ADJ and BUS_READ are functions and stand in Machine/Flags.lean and
Machine/Ops.lean, as arguments of the operations that use them (logs 4 and 3). -/

namespace Sys2Proof.Config

/-- The reset vector, low byte first (R211, R702). -/
def resetVector : Addr := 0xFFFC#16

/-- The BRK vector, low byte first (R211, R526). -/
def brkVector : Addr := 0xFFFE#16

/-- The stack page: a stack byte is at `0x0100 | SP` (R104, R211). -/
def stackPage : Addr := 0x0100#16

/-- DESIGN CHOICE (unsafe, log 1): what a memory byte reads as that nothing has written. R203 makes the contents of memory
before the first step the host's parameter INIT_MEM and fixes no byte. -/
def unlistedByte : Byte := 0x00#8

/-- DESIGN CHOICE (unsafe, log 2): the host's power-on values INIT_REGS of the 8-bit registers A, X, Y, SP and P. R700 says
only "typically zero except PC". -/
def initByte : Byte := 0x00#8

/-- DESIGN CHOICE (log 2): the power-on PC. `reset` overwrites it. -/
def initPC : Addr := 0x0000#16

/-- DESIGN CHOICE (unsafe, log 2): the power-on cycle count. -/
def initCycles : BitVec 64 := 0#64

end Sys2Proof.Config
end

