-- ==== Sys2Proof/Machine/Bits.lean ====
section
/-! DEFINITION. Bit fields, extension and byte order (00_scope.md R11, R12, R16; 20_memory.md R205). -/

namespace Sys2Proof.Machine

/-- `a[15:8]`, the page number of a 16-bit address (R16). -/
def hiByte (a : Addr) : Byte := a.extractLsb' 8 8

/-- `a[7:0]`. -/
def loByte (a : Addr) : Byte := a.extractLsb' 0 8

/-- `hi:lo`, two bytes as a 16-bit value, `hi` in the upper bits (R12). -/
def wordOf (hi lo : Byte) : Addr := hi.setWidth 16 <<< 8 ||| lo.setWidth 16

/-- `zext_16` of a byte (R12). -/
def zext16 (b : Byte) : Addr := b.setWidth 16

/-- `sext_16` of a byte: bit 7 copied into bits 15 to 8 (R12). -/
def sext16 (b : Byte) : Addr := b.signExtend 16

/-- `crossed(a, b)`: the two addresses lie on different pages (R16, R321). -/
def crossed (a b : Addr) : Bool := hiByte a != hiByte b

/-- The address of the stack byte that a stack pointer names, `0x0100 | SP` (R104). -/
def stackAddr (sp : Byte) : Addr := Config.stackPage ||| zext16 sp

/-- Byte `k` (0 the lowest) of a number: bits 8k+7 to 8k, as an instruction's bytes lie in memory (R205). -/
def byteOf (w k : Nat) : Byte := BitVec.ofNat 8 (w >>> (8 * k))

end Sys2Proof.Machine
end

