-- ==== Sys2Proof/Syntax.lean ====
section
/-! DEFINITION. The instructions as data: one constructor of `Instr` for each of the 151 rows of spec/opcode_table.json
(30_encoding.md R310, R311), with the operand bytes the instruction carries, and the two views every statement uses: the
mnemonic and the operand in its addressing mode. -/

namespace Sys2Proof

/-- The 56 mnemonics of R311. -/
inductive Mnemonic where
  | ADC | SBC
  | AND | ORA | EOR | BIT
  | ASL | LSR | ROL | ROR
  | INC | DEC | INX | INY | DEX | DEY
  | CMP | CPX | CPY
  | BCC | BCS | BEQ | BNE | BMI | BPL | BVC | BVS
  | JMP | JSR | RTS | BRK | RTI
  | PHA | PHP | PLA | PLP
  | TAX | TAY | TXA | TYA | TSX | TXS | CLC | SEC | CLD | SED | CLI | SEI | CLV | NOP
  | LDA | LDX | LDY | STA | STX | STY
  deriving DecidableEq, Repr

/-- The 13 addressing modes, by the names of R311. -/
inductive Mode where
  | imp | acc | imm | zp | zpx | zpy | abs | absx | absy | ind | indx | indy | rel
  deriving DecidableEq, Repr

/-- The addressing modes that name a data byte in memory, with the operand byte or address the instruction carries
(R324 to R328): `zp` zero page, `zpx` zp,X, `zpy` zp,Y, `abs`, `absx` abs,X, `absy` abs,Y, `indx` (zp,X), `indy` (zp),Y. -/
inductive MemMode where
  | zp (z : Byte) | zpx (z : Byte) | zpy (z : Byte)
  | abs (a : Addr) | absx (a : Addr) | absy (a : Addr)
  | indx (z : Byte) | indy (z : Byte)
  deriving DecidableEq, Repr

/-- What a read-class instruction reads: the immediate byte (R323) or a byte in memory. -/
inductive Source where
  | imm (v : Byte)
  | mem (m : MemMode)
  deriving DecidableEq, Repr

/-- What a shift or rotate works on: the accumulator (R322) or a byte in memory (R444). -/
inductive Target where
  | acc
  | mem (m : MemMode)
  deriving DecidableEq, Repr

/-- The operand of an instruction in its addressing mode (R320 to R330). -/
inductive Operand where
  | imp
  | acc
  | imm (v : Byte)
  | mem (m : MemMode)
  /-- JMP abs and JSR abs: the address is the target itself and no byte is read there (R520, R522). -/
  | jump (a : Addr)
  | ind (a : Addr)
  | rel (off : Byte)
  deriving DecidableEq, Repr

/-- The instructions, one constructor a row of the opcode table. A `Byte` argument is the operand byte (immediate value,
zero-page address or branch offset), an `Addr` argument the two operand bytes as one little-endian address (R301). -/
inductive Instr where
  -- 40_arithmetic.md
  | adcImm (v : Byte) | adcZp (z : Byte) | adcZpx (z : Byte) | adcAbs (a : Addr) | adcAbsx (a : Addr) | adcAbsy (a : Addr) | adcIndx (z : Byte) | adcIndy (z : Byte)
  | sbcImm (v : Byte) | sbcZp (z : Byte) | sbcZpx (z : Byte) | sbcAbs (a : Addr) | sbcAbsx (a : Addr) | sbcAbsy (a : Addr) | sbcIndx (z : Byte) | sbcIndy (z : Byte)
  -- 41_logical.md
  | andImm (v : Byte) | andZp (z : Byte) | andZpx (z : Byte) | andAbs (a : Addr) | andAbsx (a : Addr) | andAbsy (a : Addr) | andIndx (z : Byte) | andIndy (z : Byte)
  | oraImm (v : Byte) | oraZp (z : Byte) | oraZpx (z : Byte) | oraAbs (a : Addr) | oraAbsx (a : Addr) | oraAbsy (a : Addr) | oraIndx (z : Byte) | oraIndy (z : Byte)
  | eorImm (v : Byte) | eorZp (z : Byte) | eorZpx (z : Byte) | eorAbs (a : Addr) | eorAbsx (a : Addr) | eorAbsy (a : Addr) | eorIndx (z : Byte) | eorIndy (z : Byte)
  | bitZp (z : Byte) | bitAbs (a : Addr)
  -- 42_shift_rotate.md
  | aslAcc | aslZp (z : Byte) | aslZpx (z : Byte) | aslAbs (a : Addr) | aslAbsx (a : Addr)
  | lsrAcc | lsrZp (z : Byte) | lsrZpx (z : Byte) | lsrAbs (a : Addr) | lsrAbsx (a : Addr)
  | rolAcc | rolZp (z : Byte) | rolZpx (z : Byte) | rolAbs (a : Addr) | rolAbsx (a : Addr)
  | rorAcc | rorZp (z : Byte) | rorZpx (z : Byte) | rorAbs (a : Addr) | rorAbsx (a : Addr)
  -- 43_incdec.md
  | incZp (z : Byte) | incZpx (z : Byte) | incAbs (a : Addr) | incAbsx (a : Addr)
  | decZp (z : Byte) | decZpx (z : Byte) | decAbs (a : Addr) | decAbsx (a : Addr)
  | inx
  | iny
  | dex
  | dey
  -- 44_compare.md
  | cmpImm (v : Byte) | cmpZp (z : Byte) | cmpZpx (z : Byte) | cmpAbs (a : Addr) | cmpAbsx (a : Addr) | cmpAbsy (a : Addr) | cmpIndx (z : Byte) | cmpIndy (z : Byte)
  | cpxImm (v : Byte) | cpxZp (z : Byte) | cpxAbs (a : Addr)
  | cpyImm (v : Byte) | cpyZp (z : Byte) | cpyAbs (a : Addr)
  -- 45_branch.md
  | bcc (off : Byte)
  | bcs (off : Byte)
  | beq (off : Byte)
  | bne (off : Byte)
  | bmi (off : Byte)
  | bpl (off : Byte)
  | bvc (off : Byte)
  | bvs (off : Byte)
  -- 46_jump_call_break.md
  | jmpAbs (a : Addr) | jmpInd (a : Addr)
  | jsr (a : Addr)
  | rts
  | brk
  | rti
  -- 47_stack.md
  | pha
  | php
  | pla
  | plp
  -- 48_transfer_flag_nop.md
  | tax
  | tay
  | txa
  | tya
  | tsx
  | txs
  | clc
  | sec
  | cld
  | sed
  | cli
  | sei
  | clv
  | nop
  -- 49_load_store.md
  | ldaImm (v : Byte) | ldaZp (z : Byte) | ldaZpx (z : Byte) | ldaAbs (a : Addr) | ldaAbsx (a : Addr) | ldaAbsy (a : Addr) | ldaIndx (z : Byte) | ldaIndy (z : Byte)
  | ldxImm (v : Byte) | ldxZp (z : Byte) | ldxZpy (z : Byte) | ldxAbs (a : Addr) | ldxAbsy (a : Addr)
  | ldyImm (v : Byte) | ldyZp (z : Byte) | ldyZpx (z : Byte) | ldyAbs (a : Addr) | ldyAbsx (a : Addr)
  | staZp (z : Byte) | staZpx (z : Byte) | staAbs (a : Addr) | staAbsx (a : Addr) | staAbsy (a : Addr) | staIndx (z : Byte) | staIndy (z : Byte)
  | stxZp (z : Byte) | stxZpy (z : Byte) | stxAbs (a : Addr)
  | styZp (z : Byte) | styZpx (z : Byte) | styAbs (a : Addr)
  deriving DecidableEq, Repr

/-- The mode of a memory operand. -/
def MemMode.mode : MemMode → Mode
  | .zp _ => .zp
  | .zpx _ => .zpx
  | .zpy _ => .zpy
  | .abs _ => .abs
  | .absx _ => .absx
  | .absy _ => .absy
  | .indx _ => .indx
  | .indy _ => .indy

/-- The mode of an operand. -/
def Operand.mode : Operand → Mode
  | .imp => .imp
  | .acc => .acc
  | .imm _ => .imm
  | .mem m => m.mode
  | .jump _ => .abs
  | .ind _ => .ind
  | .rel _ => .rel

/-- A read operand as an operand. -/
def Source.operand : Source → Operand
  | .imm v => .imm v
  | .mem m => .mem m

/-- A shift or rotate operand as an operand. -/
def Target.operand : Target → Operand
  | .acc => .acc
  | .mem m => .mem m

/-- The mnemonic of an instruction (the table's first column). -/
def Instr.mnemonic : Instr → Mnemonic
  | .adcImm _ | .adcZp _ | .adcZpx _ | .adcAbs _ | .adcAbsx _ | .adcAbsy _ | .adcIndx _ | .adcIndy _ => .ADC
  | .sbcImm _ | .sbcZp _ | .sbcZpx _ | .sbcAbs _ | .sbcAbsx _ | .sbcAbsy _ | .sbcIndx _ | .sbcIndy _ => .SBC
  | .andImm _ | .andZp _ | .andZpx _ | .andAbs _ | .andAbsx _ | .andAbsy _ | .andIndx _ | .andIndy _ => .AND
  | .oraImm _ | .oraZp _ | .oraZpx _ | .oraAbs _ | .oraAbsx _ | .oraAbsy _ | .oraIndx _ | .oraIndy _ => .ORA
  | .eorImm _ | .eorZp _ | .eorZpx _ | .eorAbs _ | .eorAbsx _ | .eorAbsy _ | .eorIndx _ | .eorIndy _ => .EOR
  | .bitZp _ | .bitAbs _ => .BIT
  | .aslAcc | .aslZp _ | .aslZpx _ | .aslAbs _ | .aslAbsx _ => .ASL
  | .lsrAcc | .lsrZp _ | .lsrZpx _ | .lsrAbs _ | .lsrAbsx _ => .LSR
  | .rolAcc | .rolZp _ | .rolZpx _ | .rolAbs _ | .rolAbsx _ => .ROL
  | .rorAcc | .rorZp _ | .rorZpx _ | .rorAbs _ | .rorAbsx _ => .ROR
  | .incZp _ | .incZpx _ | .incAbs _ | .incAbsx _ => .INC
  | .decZp _ | .decZpx _ | .decAbs _ | .decAbsx _ => .DEC
  | .inx => .INX
  | .iny => .INY
  | .dex => .DEX
  | .dey => .DEY
  | .cmpImm _ | .cmpZp _ | .cmpZpx _ | .cmpAbs _ | .cmpAbsx _ | .cmpAbsy _ | .cmpIndx _ | .cmpIndy _ => .CMP
  | .cpxImm _ | .cpxZp _ | .cpxAbs _ => .CPX
  | .cpyImm _ | .cpyZp _ | .cpyAbs _ => .CPY
  | .bcc _ => .BCC
  | .bcs _ => .BCS
  | .beq _ => .BEQ
  | .bne _ => .BNE
  | .bmi _ => .BMI
  | .bpl _ => .BPL
  | .bvc _ => .BVC
  | .bvs _ => .BVS
  | .jmpAbs _ | .jmpInd _ => .JMP
  | .jsr _ => .JSR
  | .rts => .RTS
  | .brk => .BRK
  | .rti => .RTI
  | .pha => .PHA
  | .php => .PHP
  | .pla => .PLA
  | .plp => .PLP
  | .tax => .TAX
  | .tay => .TAY
  | .txa => .TXA
  | .tya => .TYA
  | .tsx => .TSX
  | .txs => .TXS
  | .clc => .CLC
  | .sec => .SEC
  | .cld => .CLD
  | .sed => .SED
  | .cli => .CLI
  | .sei => .SEI
  | .clv => .CLV
  | .nop => .NOP
  | .ldaImm _ | .ldaZp _ | .ldaZpx _ | .ldaAbs _ | .ldaAbsx _ | .ldaAbsy _ | .ldaIndx _ | .ldaIndy _ => .LDA
  | .ldxImm _ | .ldxZp _ | .ldxZpy _ | .ldxAbs _ | .ldxAbsy _ => .LDX
  | .ldyImm _ | .ldyZp _ | .ldyZpx _ | .ldyAbs _ | .ldyAbsx _ => .LDY
  | .staZp _ | .staZpx _ | .staAbs _ | .staAbsx _ | .staAbsy _ | .staIndx _ | .staIndy _ => .STA
  | .stxZp _ | .stxZpy _ | .stxAbs _ => .STX
  | .styZp _ | .styZpx _ | .styAbs _ => .STY

/-- The operand of an instruction in its addressing mode. -/
def Instr.operand : Instr → Operand
  | .adcImm v => .imm v
  | .adcZp z => .mem (.zp z)
  | .adcZpx z => .mem (.zpx z)
  | .adcAbs a => .mem (.abs a)
  | .adcAbsx a => .mem (.absx a)
  | .adcAbsy a => .mem (.absy a)
  | .adcIndx z => .mem (.indx z)
  | .adcIndy z => .mem (.indy z)
  | .sbcImm v => .imm v
  | .sbcZp z => .mem (.zp z)
  | .sbcZpx z => .mem (.zpx z)
  | .sbcAbs a => .mem (.abs a)
  | .sbcAbsx a => .mem (.absx a)
  | .sbcAbsy a => .mem (.absy a)
  | .sbcIndx z => .mem (.indx z)
  | .sbcIndy z => .mem (.indy z)
  | .andImm v => .imm v
  | .andZp z => .mem (.zp z)
  | .andZpx z => .mem (.zpx z)
  | .andAbs a => .mem (.abs a)
  | .andAbsx a => .mem (.absx a)
  | .andAbsy a => .mem (.absy a)
  | .andIndx z => .mem (.indx z)
  | .andIndy z => .mem (.indy z)
  | .oraImm v => .imm v
  | .oraZp z => .mem (.zp z)
  | .oraZpx z => .mem (.zpx z)
  | .oraAbs a => .mem (.abs a)
  | .oraAbsx a => .mem (.absx a)
  | .oraAbsy a => .mem (.absy a)
  | .oraIndx z => .mem (.indx z)
  | .oraIndy z => .mem (.indy z)
  | .eorImm v => .imm v
  | .eorZp z => .mem (.zp z)
  | .eorZpx z => .mem (.zpx z)
  | .eorAbs a => .mem (.abs a)
  | .eorAbsx a => .mem (.absx a)
  | .eorAbsy a => .mem (.absy a)
  | .eorIndx z => .mem (.indx z)
  | .eorIndy z => .mem (.indy z)
  | .bitZp z => .mem (.zp z)
  | .bitAbs a => .mem (.abs a)
  | .aslAcc => .acc
  | .aslZp z => .mem (.zp z)
  | .aslZpx z => .mem (.zpx z)
  | .aslAbs a => .mem (.abs a)
  | .aslAbsx a => .mem (.absx a)
  | .lsrAcc => .acc
  | .lsrZp z => .mem (.zp z)
  | .lsrZpx z => .mem (.zpx z)
  | .lsrAbs a => .mem (.abs a)
  | .lsrAbsx a => .mem (.absx a)
  | .rolAcc => .acc
  | .rolZp z => .mem (.zp z)
  | .rolZpx z => .mem (.zpx z)
  | .rolAbs a => .mem (.abs a)
  | .rolAbsx a => .mem (.absx a)
  | .rorAcc => .acc
  | .rorZp z => .mem (.zp z)
  | .rorZpx z => .mem (.zpx z)
  | .rorAbs a => .mem (.abs a)
  | .rorAbsx a => .mem (.absx a)
  | .incZp z => .mem (.zp z)
  | .incZpx z => .mem (.zpx z)
  | .incAbs a => .mem (.abs a)
  | .incAbsx a => .mem (.absx a)
  | .decZp z => .mem (.zp z)
  | .decZpx z => .mem (.zpx z)
  | .decAbs a => .mem (.abs a)
  | .decAbsx a => .mem (.absx a)
  | .inx => .imp
  | .iny => .imp
  | .dex => .imp
  | .dey => .imp
  | .cmpImm v => .imm v
  | .cmpZp z => .mem (.zp z)
  | .cmpZpx z => .mem (.zpx z)
  | .cmpAbs a => .mem (.abs a)
  | .cmpAbsx a => .mem (.absx a)
  | .cmpAbsy a => .mem (.absy a)
  | .cmpIndx z => .mem (.indx z)
  | .cmpIndy z => .mem (.indy z)
  | .cpxImm v => .imm v
  | .cpxZp z => .mem (.zp z)
  | .cpxAbs a => .mem (.abs a)
  | .cpyImm v => .imm v
  | .cpyZp z => .mem (.zp z)
  | .cpyAbs a => .mem (.abs a)
  | .bcc off => .rel off
  | .bcs off => .rel off
  | .beq off => .rel off
  | .bne off => .rel off
  | .bmi off => .rel off
  | .bpl off => .rel off
  | .bvc off => .rel off
  | .bvs off => .rel off
  | .jmpAbs a => .jump a
  | .jmpInd a => .ind a
  | .jsr a => .jump a
  | .rts => .imp
  | .brk => .imp
  | .rti => .imp
  | .pha => .imp
  | .php => .imp
  | .pla => .imp
  | .plp => .imp
  | .tax => .imp
  | .tay => .imp
  | .txa => .imp
  | .tya => .imp
  | .tsx => .imp
  | .txs => .imp
  | .clc => .imp
  | .sec => .imp
  | .cld => .imp
  | .sed => .imp
  | .cli => .imp
  | .sei => .imp
  | .clv => .imp
  | .nop => .imp
  | .ldaImm v => .imm v
  | .ldaZp z => .mem (.zp z)
  | .ldaZpx z => .mem (.zpx z)
  | .ldaAbs a => .mem (.abs a)
  | .ldaAbsx a => .mem (.absx a)
  | .ldaAbsy a => .mem (.absy a)
  | .ldaIndx z => .mem (.indx z)
  | .ldaIndy z => .mem (.indy z)
  | .ldxImm v => .imm v
  | .ldxZp z => .mem (.zp z)
  | .ldxZpy z => .mem (.zpy z)
  | .ldxAbs a => .mem (.abs a)
  | .ldxAbsy a => .mem (.absy a)
  | .ldyImm v => .imm v
  | .ldyZp z => .mem (.zp z)
  | .ldyZpx z => .mem (.zpx z)
  | .ldyAbs a => .mem (.abs a)
  | .ldyAbsx a => .mem (.absx a)
  | .staZp z => .mem (.zp z)
  | .staZpx z => .mem (.zpx z)
  | .staAbs a => .mem (.abs a)
  | .staAbsx a => .mem (.absx a)
  | .staAbsy a => .mem (.absy a)
  | .staIndx z => .mem (.indx z)
  | .staIndy z => .mem (.indy z)
  | .stxZp z => .mem (.zp z)
  | .stxZpy z => .mem (.zpy z)
  | .stxAbs a => .mem (.abs a)
  | .styZp z => .mem (.zp z)
  | .styZpx z => .mem (.zpx z)
  | .styAbs a => .mem (.abs a)

/-- The addressing mode of an instruction (the table's second column). -/
def Instr.mode (i : Instr) : Mode := i.operand.mode

end Sys2Proof
end

