-- ==== Sys2Proof/WellFormed.lean ====
section
/-! DEFINITION. Which instructions exist, stated from the "Encoding" line of each instruction's own rule (files 40 to 49), apart
from the opcode map: a mnemonic has only the addressing modes its rule lists. `Line` is an instruction as one writes it down
(30_encoding.md R340), where all three checks can fail; every term of `Instr` passes its check. -/

namespace Sys2Proof

/-- The addressing modes each mnemonic has, from the "Encoding" line of its rule. -/
def Mnemonic.modes : Mnemonic → List Mode
  | .ADC | .SBC | .AND | .ORA | .EOR | .CMP | .LDA => [.imm, .zp, .zpx, .abs, .absx, .absy, .indx, .indy]
  | .BIT => [.zp, .abs]
  | .ASL | .LSR | .ROL | .ROR => [.acc, .zp, .zpx, .abs, .absx]
  | .INC | .DEC => [.zp, .zpx, .abs, .absx]
  | .INX | .INY | .DEX | .DEY | .RTS | .BRK | .RTI | .PHA | .PHP | .PLA | .PLP | .TAX | .TAY | .TXA | .TYA | .TSX | .TXS | .CLC | .SEC | .CLD | .SED | .CLI | .SEI | .CLV | .NOP => [.imp]
  | .CPX | .CPY => [.imm, .zp, .abs]
  | .BCC | .BCS | .BEQ | .BNE | .BMI | .BPL | .BVC | .BVS => [.rel]
  | .JMP => [.abs, .ind]
  | .JSR => [.abs]
  | .LDX => [.imm, .zp, .zpy, .abs, .absy]
  | .LDY => [.imm, .zp, .zpx, .abs, .absx]
  | .STA => [.zp, .zpx, .abs, .absx, .absy, .indx, .indy]
  | .STX => [.zp, .zpy, .abs]
  | .STY => [.zp, .zpx, .abs]

/-- The well-formedness check of an instruction: its mnemonic has its addressing mode. Operands need no check, because every
byte and every address is a valid operand (R105, R207, R520). -/
def Instr.wf (i : Instr) : Bool := i.mnemonic.modes.contains i.mode

/-- An instruction as written (R340): mnemonic, addressing mode, the number written in the operand field (for a branch, the
TARGET address) and the address `at0` the instruction stands at. -/
structure Line where
  mnemonic : Mnemonic
  mode : Mode
  operand : Nat
  at0 : Nat
  deriving DecidableEq, Repr

/-- Check 1: the mnemonic has the addressing mode. -/
def Line.modeOk (l : Line) : Bool := l.mnemonic.modes.contains l.mode

/-- Check 2: the operand field fits the mode: nothing, a byte, or a 16-bit address (R301; a branch is written with its target). -/
def Line.operandOk (l : Line) : Bool :=
  match l.mode with
  | .imp | .acc => l.operand == 0
  | .imm | .zp | .zpx | .zpy | .indx | .indy => decide (l.operand < 256)
  | .abs | .absx | .absy | .ind | .rel => decide (l.operand < 65536)

/-- The distance of a branch target from the instruction after the branch, modulo 65536 (R340). -/
def Line.distance (l : Line) : Nat := (l.operand + 65536 - (l.at0 + 2) % 65536) % 65536

/-- Check 3: a branch target lies within -128 to +127 of the address after the branch (R340). -/
def Line.reachOk (l : Line) : Bool :=
  match l.mode with
  | .rel => decide (l.distance < 128) || decide (65408 ≤ l.distance)
  | _ => true

/-- A written instruction is well formed: its mode exists, its operand fits and a branch reaches. -/
def Line.wf (l : Line) : Bool := l.modeOk && l.operandOk && l.reachOk

end Sys2Proof
end

