-- ==== Sys2Proof/Decode.lean ====
section
/-! DEFINITION. The opcode map (30_encoding.md R310, R311, R313), the decoder, which is total on any list of bytes and rejects
by name, and after it the encoder, written from the "Encoding" lines of files 40 to 49. -/

namespace Sys2Proof

/-- The page-cross class of an opcode (R312). -/
inductive PageCross where
  | none | read | branch
  deriving DecidableEq, Repr

/-- The three formats (R301): how many operand bytes follow the opcode, and the instruction they make. -/
inductive Form where
  | f1 (i : Instr)
  | f2 (build : Byte → Instr)
  | f3 (build : Addr → Instr)

/-- One row of the dispatch table (R310): opcode byte, mnemonic, addressing mode, length in bytes, base cycles, page-cross class,
and the format that builds the instruction. -/
structure Row where
  opcode : Byte
  mnemonic : Mnemonic
  mode : Mode
  length : Nat
  cycles : Nat
  pageCross : PageCross
  form : Form

/-- Instruction length by addressing mode (R302). BRK is one byte long; its return address is its own rule (R526). -/
def Mode.length : Mode → Nat
  | .imp | .acc => 1
  | .imm | .zp | .zpx | .zpy | .indx | .indy | .rel => 2
  | .abs | .absx | .absy | .ind => 3

/-- Row 0x of the opcode map (R310, R311). -/
def rows0x : List Row :=
  [ ⟨0x00#8, .BRK, .imp, 1, 7, .none, .f1 .brk⟩,
    ⟨0x01#8, .ORA, .indx, 2, 6, .none, .f2 .oraIndx⟩,
    ⟨0x05#8, .ORA, .zp, 2, 3, .none, .f2 .oraZp⟩,
    ⟨0x06#8, .ASL, .zp, 2, 5, .none, .f2 .aslZp⟩,
    ⟨0x08#8, .PHP, .imp, 1, 3, .none, .f1 .php⟩,
    ⟨0x09#8, .ORA, .imm, 2, 2, .none, .f2 .oraImm⟩,
    ⟨0x0A#8, .ASL, .acc, 1, 2, .none, .f1 .aslAcc⟩,
    ⟨0x0D#8, .ORA, .abs, 3, 4, .none, .f3 .oraAbs⟩,
    ⟨0x0E#8, .ASL, .abs, 3, 6, .none, .f3 .aslAbs⟩ ]

/-- Row 1x of the opcode map (R310, R311). -/
def rows1x : List Row :=
  [ ⟨0x10#8, .BPL, .rel, 2, 2, .branch, .f2 .bpl⟩,
    ⟨0x11#8, .ORA, .indy, 2, 5, .read, .f2 .oraIndy⟩,
    ⟨0x15#8, .ORA, .zpx, 2, 4, .none, .f2 .oraZpx⟩,
    ⟨0x16#8, .ASL, .zpx, 2, 6, .none, .f2 .aslZpx⟩,
    ⟨0x18#8, .CLC, .imp, 1, 2, .none, .f1 .clc⟩,
    ⟨0x19#8, .ORA, .absy, 3, 4, .read, .f3 .oraAbsy⟩,
    ⟨0x1D#8, .ORA, .absx, 3, 4, .read, .f3 .oraAbsx⟩,
    ⟨0x1E#8, .ASL, .absx, 3, 7, .none, .f3 .aslAbsx⟩ ]

/-- Row 2x of the opcode map (R310, R311). -/
def rows2x : List Row :=
  [ ⟨0x20#8, .JSR, .abs, 3, 6, .none, .f3 .jsr⟩,
    ⟨0x21#8, .AND, .indx, 2, 6, .none, .f2 .andIndx⟩,
    ⟨0x24#8, .BIT, .zp, 2, 3, .none, .f2 .bitZp⟩,
    ⟨0x25#8, .AND, .zp, 2, 3, .none, .f2 .andZp⟩,
    ⟨0x26#8, .ROL, .zp, 2, 5, .none, .f2 .rolZp⟩,
    ⟨0x28#8, .PLP, .imp, 1, 4, .none, .f1 .plp⟩,
    ⟨0x29#8, .AND, .imm, 2, 2, .none, .f2 .andImm⟩,
    ⟨0x2A#8, .ROL, .acc, 1, 2, .none, .f1 .rolAcc⟩,
    ⟨0x2C#8, .BIT, .abs, 3, 4, .none, .f3 .bitAbs⟩,
    ⟨0x2D#8, .AND, .abs, 3, 4, .none, .f3 .andAbs⟩,
    ⟨0x2E#8, .ROL, .abs, 3, 6, .none, .f3 .rolAbs⟩ ]

/-- Row 3x of the opcode map (R310, R311). -/
def rows3x : List Row :=
  [ ⟨0x30#8, .BMI, .rel, 2, 2, .branch, .f2 .bmi⟩,
    ⟨0x31#8, .AND, .indy, 2, 5, .read, .f2 .andIndy⟩,
    ⟨0x35#8, .AND, .zpx, 2, 4, .none, .f2 .andZpx⟩,
    ⟨0x36#8, .ROL, .zpx, 2, 6, .none, .f2 .rolZpx⟩,
    ⟨0x38#8, .SEC, .imp, 1, 2, .none, .f1 .sec⟩,
    ⟨0x39#8, .AND, .absy, 3, 4, .read, .f3 .andAbsy⟩,
    ⟨0x3D#8, .AND, .absx, 3, 4, .read, .f3 .andAbsx⟩,
    ⟨0x3E#8, .ROL, .absx, 3, 7, .none, .f3 .rolAbsx⟩ ]

/-- Row 4x of the opcode map (R310, R311). -/
def rows4x : List Row :=
  [ ⟨0x40#8, .RTI, .imp, 1, 6, .none, .f1 .rti⟩,
    ⟨0x41#8, .EOR, .indx, 2, 6, .none, .f2 .eorIndx⟩,
    ⟨0x45#8, .EOR, .zp, 2, 3, .none, .f2 .eorZp⟩,
    ⟨0x46#8, .LSR, .zp, 2, 5, .none, .f2 .lsrZp⟩,
    ⟨0x48#8, .PHA, .imp, 1, 3, .none, .f1 .pha⟩,
    ⟨0x49#8, .EOR, .imm, 2, 2, .none, .f2 .eorImm⟩,
    ⟨0x4A#8, .LSR, .acc, 1, 2, .none, .f1 .lsrAcc⟩,
    ⟨0x4C#8, .JMP, .abs, 3, 3, .none, .f3 .jmpAbs⟩,
    ⟨0x4D#8, .EOR, .abs, 3, 4, .none, .f3 .eorAbs⟩,
    ⟨0x4E#8, .LSR, .abs, 3, 6, .none, .f3 .lsrAbs⟩ ]

/-- Row 5x of the opcode map (R310, R311). -/
def rows5x : List Row :=
  [ ⟨0x50#8, .BVC, .rel, 2, 2, .branch, .f2 .bvc⟩,
    ⟨0x51#8, .EOR, .indy, 2, 5, .read, .f2 .eorIndy⟩,
    ⟨0x55#8, .EOR, .zpx, 2, 4, .none, .f2 .eorZpx⟩,
    ⟨0x56#8, .LSR, .zpx, 2, 6, .none, .f2 .lsrZpx⟩,
    ⟨0x58#8, .CLI, .imp, 1, 2, .none, .f1 .cli⟩,
    ⟨0x59#8, .EOR, .absy, 3, 4, .read, .f3 .eorAbsy⟩,
    ⟨0x5D#8, .EOR, .absx, 3, 4, .read, .f3 .eorAbsx⟩,
    ⟨0x5E#8, .LSR, .absx, 3, 7, .none, .f3 .lsrAbsx⟩ ]

/-- Row 6x of the opcode map (R310, R311). -/
def rows6x : List Row :=
  [ ⟨0x60#8, .RTS, .imp, 1, 6, .none, .f1 .rts⟩,
    ⟨0x61#8, .ADC, .indx, 2, 6, .none, .f2 .adcIndx⟩,
    ⟨0x65#8, .ADC, .zp, 2, 3, .none, .f2 .adcZp⟩,
    ⟨0x66#8, .ROR, .zp, 2, 5, .none, .f2 .rorZp⟩,
    ⟨0x68#8, .PLA, .imp, 1, 4, .none, .f1 .pla⟩,
    ⟨0x69#8, .ADC, .imm, 2, 2, .none, .f2 .adcImm⟩,
    ⟨0x6A#8, .ROR, .acc, 1, 2, .none, .f1 .rorAcc⟩,
    ⟨0x6C#8, .JMP, .ind, 3, 5, .none, .f3 .jmpInd⟩,
    ⟨0x6D#8, .ADC, .abs, 3, 4, .none, .f3 .adcAbs⟩,
    ⟨0x6E#8, .ROR, .abs, 3, 6, .none, .f3 .rorAbs⟩ ]

/-- Row 7x of the opcode map (R310, R311). -/
def rows7x : List Row :=
  [ ⟨0x70#8, .BVS, .rel, 2, 2, .branch, .f2 .bvs⟩,
    ⟨0x71#8, .ADC, .indy, 2, 5, .read, .f2 .adcIndy⟩,
    ⟨0x75#8, .ADC, .zpx, 2, 4, .none, .f2 .adcZpx⟩,
    ⟨0x76#8, .ROR, .zpx, 2, 6, .none, .f2 .rorZpx⟩,
    ⟨0x78#8, .SEI, .imp, 1, 2, .none, .f1 .sei⟩,
    ⟨0x79#8, .ADC, .absy, 3, 4, .read, .f3 .adcAbsy⟩,
    ⟨0x7D#8, .ADC, .absx, 3, 4, .read, .f3 .adcAbsx⟩,
    ⟨0x7E#8, .ROR, .absx, 3, 7, .none, .f3 .rorAbsx⟩ ]

/-- Row 8x of the opcode map (R310, R311). -/
def rows8x : List Row :=
  [ ⟨0x81#8, .STA, .indx, 2, 6, .none, .f2 .staIndx⟩,
    ⟨0x84#8, .STY, .zp, 2, 3, .none, .f2 .styZp⟩,
    ⟨0x85#8, .STA, .zp, 2, 3, .none, .f2 .staZp⟩,
    ⟨0x86#8, .STX, .zp, 2, 3, .none, .f2 .stxZp⟩,
    ⟨0x88#8, .DEY, .imp, 1, 2, .none, .f1 .dey⟩,
    ⟨0x8A#8, .TXA, .imp, 1, 2, .none, .f1 .txa⟩,
    ⟨0x8C#8, .STY, .abs, 3, 4, .none, .f3 .styAbs⟩,
    ⟨0x8D#8, .STA, .abs, 3, 4, .none, .f3 .staAbs⟩,
    ⟨0x8E#8, .STX, .abs, 3, 4, .none, .f3 .stxAbs⟩ ]

/-- Row 9x of the opcode map (R310, R311). -/
def rows9x : List Row :=
  [ ⟨0x90#8, .BCC, .rel, 2, 2, .branch, .f2 .bcc⟩,
    ⟨0x91#8, .STA, .indy, 2, 6, .none, .f2 .staIndy⟩,
    ⟨0x94#8, .STY, .zpx, 2, 4, .none, .f2 .styZpx⟩,
    ⟨0x95#8, .STA, .zpx, 2, 4, .none, .f2 .staZpx⟩,
    ⟨0x96#8, .STX, .zpy, 2, 4, .none, .f2 .stxZpy⟩,
    ⟨0x98#8, .TYA, .imp, 1, 2, .none, .f1 .tya⟩,
    ⟨0x99#8, .STA, .absy, 3, 5, .none, .f3 .staAbsy⟩,
    ⟨0x9A#8, .TXS, .imp, 1, 2, .none, .f1 .txs⟩,
    ⟨0x9D#8, .STA, .absx, 3, 5, .none, .f3 .staAbsx⟩ ]

/-- Row Ax of the opcode map (R310, R311). -/
def rowsAx : List Row :=
  [ ⟨0xA0#8, .LDY, .imm, 2, 2, .none, .f2 .ldyImm⟩,
    ⟨0xA1#8, .LDA, .indx, 2, 6, .none, .f2 .ldaIndx⟩,
    ⟨0xA2#8, .LDX, .imm, 2, 2, .none, .f2 .ldxImm⟩,
    ⟨0xA4#8, .LDY, .zp, 2, 3, .none, .f2 .ldyZp⟩,
    ⟨0xA5#8, .LDA, .zp, 2, 3, .none, .f2 .ldaZp⟩,
    ⟨0xA6#8, .LDX, .zp, 2, 3, .none, .f2 .ldxZp⟩,
    ⟨0xA8#8, .TAY, .imp, 1, 2, .none, .f1 .tay⟩,
    ⟨0xA9#8, .LDA, .imm, 2, 2, .none, .f2 .ldaImm⟩,
    ⟨0xAA#8, .TAX, .imp, 1, 2, .none, .f1 .tax⟩,
    ⟨0xAC#8, .LDY, .abs, 3, 4, .none, .f3 .ldyAbs⟩,
    ⟨0xAD#8, .LDA, .abs, 3, 4, .none, .f3 .ldaAbs⟩,
    ⟨0xAE#8, .LDX, .abs, 3, 4, .none, .f3 .ldxAbs⟩ ]

/-- Row Bx of the opcode map (R310, R311). -/
def rowsBx : List Row :=
  [ ⟨0xB0#8, .BCS, .rel, 2, 2, .branch, .f2 .bcs⟩,
    ⟨0xB1#8, .LDA, .indy, 2, 5, .read, .f2 .ldaIndy⟩,
    ⟨0xB4#8, .LDY, .zpx, 2, 4, .none, .f2 .ldyZpx⟩,
    ⟨0xB5#8, .LDA, .zpx, 2, 4, .none, .f2 .ldaZpx⟩,
    ⟨0xB6#8, .LDX, .zpy, 2, 4, .none, .f2 .ldxZpy⟩,
    ⟨0xB8#8, .CLV, .imp, 1, 2, .none, .f1 .clv⟩,
    ⟨0xB9#8, .LDA, .absy, 3, 4, .read, .f3 .ldaAbsy⟩,
    ⟨0xBA#8, .TSX, .imp, 1, 2, .none, .f1 .tsx⟩,
    ⟨0xBC#8, .LDY, .absx, 3, 4, .read, .f3 .ldyAbsx⟩,
    ⟨0xBD#8, .LDA, .absx, 3, 4, .read, .f3 .ldaAbsx⟩,
    ⟨0xBE#8, .LDX, .absy, 3, 4, .read, .f3 .ldxAbsy⟩ ]

/-- Row Cx of the opcode map (R310, R311). -/
def rowsCx : List Row :=
  [ ⟨0xC0#8, .CPY, .imm, 2, 2, .none, .f2 .cpyImm⟩,
    ⟨0xC1#8, .CMP, .indx, 2, 6, .none, .f2 .cmpIndx⟩,
    ⟨0xC4#8, .CPY, .zp, 2, 3, .none, .f2 .cpyZp⟩,
    ⟨0xC5#8, .CMP, .zp, 2, 3, .none, .f2 .cmpZp⟩,
    ⟨0xC6#8, .DEC, .zp, 2, 5, .none, .f2 .decZp⟩,
    ⟨0xC8#8, .INY, .imp, 1, 2, .none, .f1 .iny⟩,
    ⟨0xC9#8, .CMP, .imm, 2, 2, .none, .f2 .cmpImm⟩,
    ⟨0xCA#8, .DEX, .imp, 1, 2, .none, .f1 .dex⟩,
    ⟨0xCC#8, .CPY, .abs, 3, 4, .none, .f3 .cpyAbs⟩,
    ⟨0xCD#8, .CMP, .abs, 3, 4, .none, .f3 .cmpAbs⟩,
    ⟨0xCE#8, .DEC, .abs, 3, 6, .none, .f3 .decAbs⟩ ]

/-- Row Dx of the opcode map (R310, R311). -/
def rowsDx : List Row :=
  [ ⟨0xD0#8, .BNE, .rel, 2, 2, .branch, .f2 .bne⟩,
    ⟨0xD1#8, .CMP, .indy, 2, 5, .read, .f2 .cmpIndy⟩,
    ⟨0xD5#8, .CMP, .zpx, 2, 4, .none, .f2 .cmpZpx⟩,
    ⟨0xD6#8, .DEC, .zpx, 2, 6, .none, .f2 .decZpx⟩,
    ⟨0xD8#8, .CLD, .imp, 1, 2, .none, .f1 .cld⟩,
    ⟨0xD9#8, .CMP, .absy, 3, 4, .read, .f3 .cmpAbsy⟩,
    ⟨0xDD#8, .CMP, .absx, 3, 4, .read, .f3 .cmpAbsx⟩,
    ⟨0xDE#8, .DEC, .absx, 3, 7, .none, .f3 .decAbsx⟩ ]

/-- Row Ex of the opcode map (R310, R311). -/
def rowsEx : List Row :=
  [ ⟨0xE0#8, .CPX, .imm, 2, 2, .none, .f2 .cpxImm⟩,
    ⟨0xE1#8, .SBC, .indx, 2, 6, .none, .f2 .sbcIndx⟩,
    ⟨0xE4#8, .CPX, .zp, 2, 3, .none, .f2 .cpxZp⟩,
    ⟨0xE5#8, .SBC, .zp, 2, 3, .none, .f2 .sbcZp⟩,
    ⟨0xE6#8, .INC, .zp, 2, 5, .none, .f2 .incZp⟩,
    ⟨0xE8#8, .INX, .imp, 1, 2, .none, .f1 .inx⟩,
    ⟨0xE9#8, .SBC, .imm, 2, 2, .none, .f2 .sbcImm⟩,
    ⟨0xEA#8, .NOP, .imp, 1, 2, .none, .f1 .nop⟩,
    ⟨0xEC#8, .CPX, .abs, 3, 4, .none, .f3 .cpxAbs⟩,
    ⟨0xED#8, .SBC, .abs, 3, 4, .none, .f3 .sbcAbs⟩,
    ⟨0xEE#8, .INC, .abs, 3, 6, .none, .f3 .incAbs⟩ ]

/-- Row Fx of the opcode map (R310, R311). -/
def rowsFx : List Row :=
  [ ⟨0xF0#8, .BEQ, .rel, 2, 2, .branch, .f2 .beq⟩,
    ⟨0xF1#8, .SBC, .indy, 2, 5, .read, .f2 .sbcIndy⟩,
    ⟨0xF5#8, .SBC, .zpx, 2, 4, .none, .f2 .sbcZpx⟩,
    ⟨0xF6#8, .INC, .zpx, 2, 6, .none, .f2 .incZpx⟩,
    ⟨0xF8#8, .SED, .imp, 1, 2, .none, .f1 .sed⟩,
    ⟨0xF9#8, .SBC, .absy, 3, 4, .read, .f3 .sbcAbsy⟩,
    ⟨0xFD#8, .SBC, .absx, 3, 4, .read, .f3 .sbcAbsx⟩,
    ⟨0xFE#8, .INC, .absx, 3, 7, .none, .f3 .incAbsx⟩ ]

/-- The dispatch table: the 151 defined opcodes (R311). -/
def dispatchTable : List Row :=
  rows0x ++ rows1x ++ rows2x ++ rows3x ++
  rows4x ++ rows5x ++ rows6x ++ rows7x ++
  rows8x ++ rows9x ++ rowsAx ++ rowsBx ++
  rowsCx ++ rowsDx ++ rowsEx ++ rowsFx

/-- `DISPATCH[op]`: the row of a defined opcode, `none` for an UNDEFINED one (R310, R313). -/
def dispatch (op : Byte) : Option Row := dispatchTable.find? (fun r => r.opcode == op)

/-- Why a list of bytes is no instruction. -/
inductive DecodeError where
  /-- There is no opcode byte. -/
  | empty
  /-- The opcode byte is one of the 105 UNDEFINED values (R313). -/
  | unknownOpcode (op : Byte)
  /-- The opcode is defined and its operand bytes are missing. -/
  | truncated (op : Byte)
  deriving DecidableEq, Repr

/-- The decoder: one instruction from the front of a list of bytes, and the bytes after it. The opcode alone decides (R300). -/
def decode : List Byte → Except DecodeError (Instr × List Byte)
  | [] => .error .empty
  | op :: rest =>
    match dispatch op with
    | none => .error (.unknownOpcode op)
    | some row =>
      match row.form, rest with
      | .f1 i, r => .ok (i, r)
      | .f2 build, b :: r => .ok (build b, r)
      | .f3 build, l :: h :: r => .ok (build (Machine.wordOf h l), r)
      | _, _ => .error (.truncated op)

/-- The decoder on one row of spec/opcode_table.json: the first byte is bits 7 to 0 of `w`, the next bits 15 to 8, the third
bits 23 to 16; every bit from `nbits` on is 0. -/
def decodeTableWord (nbits w : Nat) : Option Instr :=
  let v := w % 2 ^ nbits
  match decode [Machine.byteOf v 0, Machine.byteOf v 1, Machine.byteOf v 2] with
  | .ok (i, _) => some i
  | .error _ => none

/-- An opcode and one operand byte (format F2, R301). -/
def enc2 (op b : Byte) : List Byte := [op, b]

/-- An opcode and a 16-bit address, low byte first (format F3, R301). -/
def enc3 (op : Byte) (a : Addr) : List Byte := [op, Machine.loByte a, Machine.hiByte a]

/-- The encoder: the bytes of an instruction, from the "Encoding" line of its rule. -/
def encode : Instr → List Byte
  | .adcImm v => enc2 0x69#8 v
  | .adcZp z => enc2 0x65#8 z
  | .adcZpx z => enc2 0x75#8 z
  | .adcAbs a => enc3 0x6D#8 a
  | .adcAbsx a => enc3 0x7D#8 a
  | .adcAbsy a => enc3 0x79#8 a
  | .adcIndx z => enc2 0x61#8 z
  | .adcIndy z => enc2 0x71#8 z
  | .sbcImm v => enc2 0xE9#8 v
  | .sbcZp z => enc2 0xE5#8 z
  | .sbcZpx z => enc2 0xF5#8 z
  | .sbcAbs a => enc3 0xED#8 a
  | .sbcAbsx a => enc3 0xFD#8 a
  | .sbcAbsy a => enc3 0xF9#8 a
  | .sbcIndx z => enc2 0xE1#8 z
  | .sbcIndy z => enc2 0xF1#8 z
  | .andImm v => enc2 0x29#8 v
  | .andZp z => enc2 0x25#8 z
  | .andZpx z => enc2 0x35#8 z
  | .andAbs a => enc3 0x2D#8 a
  | .andAbsx a => enc3 0x3D#8 a
  | .andAbsy a => enc3 0x39#8 a
  | .andIndx z => enc2 0x21#8 z
  | .andIndy z => enc2 0x31#8 z
  | .oraImm v => enc2 0x09#8 v
  | .oraZp z => enc2 0x05#8 z
  | .oraZpx z => enc2 0x15#8 z
  | .oraAbs a => enc3 0x0D#8 a
  | .oraAbsx a => enc3 0x1D#8 a
  | .oraAbsy a => enc3 0x19#8 a
  | .oraIndx z => enc2 0x01#8 z
  | .oraIndy z => enc2 0x11#8 z
  | .eorImm v => enc2 0x49#8 v
  | .eorZp z => enc2 0x45#8 z
  | .eorZpx z => enc2 0x55#8 z
  | .eorAbs a => enc3 0x4D#8 a
  | .eorAbsx a => enc3 0x5D#8 a
  | .eorAbsy a => enc3 0x59#8 a
  | .eorIndx z => enc2 0x41#8 z
  | .eorIndy z => enc2 0x51#8 z
  | .bitZp z => enc2 0x24#8 z
  | .bitAbs a => enc3 0x2C#8 a
  | .aslAcc => [0x0A#8]
  | .aslZp z => enc2 0x06#8 z
  | .aslZpx z => enc2 0x16#8 z
  | .aslAbs a => enc3 0x0E#8 a
  | .aslAbsx a => enc3 0x1E#8 a
  | .lsrAcc => [0x4A#8]
  | .lsrZp z => enc2 0x46#8 z
  | .lsrZpx z => enc2 0x56#8 z
  | .lsrAbs a => enc3 0x4E#8 a
  | .lsrAbsx a => enc3 0x5E#8 a
  | .rolAcc => [0x2A#8]
  | .rolZp z => enc2 0x26#8 z
  | .rolZpx z => enc2 0x36#8 z
  | .rolAbs a => enc3 0x2E#8 a
  | .rolAbsx a => enc3 0x3E#8 a
  | .rorAcc => [0x6A#8]
  | .rorZp z => enc2 0x66#8 z
  | .rorZpx z => enc2 0x76#8 z
  | .rorAbs a => enc3 0x6E#8 a
  | .rorAbsx a => enc3 0x7E#8 a
  | .incZp z => enc2 0xE6#8 z
  | .incZpx z => enc2 0xF6#8 z
  | .incAbs a => enc3 0xEE#8 a
  | .incAbsx a => enc3 0xFE#8 a
  | .decZp z => enc2 0xC6#8 z
  | .decZpx z => enc2 0xD6#8 z
  | .decAbs a => enc3 0xCE#8 a
  | .decAbsx a => enc3 0xDE#8 a
  | .inx => [0xE8#8]
  | .iny => [0xC8#8]
  | .dex => [0xCA#8]
  | .dey => [0x88#8]
  | .cmpImm v => enc2 0xC9#8 v
  | .cmpZp z => enc2 0xC5#8 z
  | .cmpZpx z => enc2 0xD5#8 z
  | .cmpAbs a => enc3 0xCD#8 a
  | .cmpAbsx a => enc3 0xDD#8 a
  | .cmpAbsy a => enc3 0xD9#8 a
  | .cmpIndx z => enc2 0xC1#8 z
  | .cmpIndy z => enc2 0xD1#8 z
  | .cpxImm v => enc2 0xE0#8 v
  | .cpxZp z => enc2 0xE4#8 z
  | .cpxAbs a => enc3 0xEC#8 a
  | .cpyImm v => enc2 0xC0#8 v
  | .cpyZp z => enc2 0xC4#8 z
  | .cpyAbs a => enc3 0xCC#8 a
  | .bcc off => enc2 0x90#8 off
  | .bcs off => enc2 0xB0#8 off
  | .beq off => enc2 0xF0#8 off
  | .bne off => enc2 0xD0#8 off
  | .bmi off => enc2 0x30#8 off
  | .bpl off => enc2 0x10#8 off
  | .bvc off => enc2 0x50#8 off
  | .bvs off => enc2 0x70#8 off
  | .jmpAbs a => enc3 0x4C#8 a
  | .jmpInd a => enc3 0x6C#8 a
  | .jsr a => enc3 0x20#8 a
  | .rts => [0x60#8]
  | .brk => [0x00#8]
  | .rti => [0x40#8]
  | .pha => [0x48#8]
  | .php => [0x08#8]
  | .pla => [0x68#8]
  | .plp => [0x28#8]
  | .tax => [0xAA#8]
  | .tay => [0xA8#8]
  | .txa => [0x8A#8]
  | .tya => [0x98#8]
  | .tsx => [0xBA#8]
  | .txs => [0x9A#8]
  | .clc => [0x18#8]
  | .sec => [0x38#8]
  | .cld => [0xD8#8]
  | .sed => [0xF8#8]
  | .cli => [0x58#8]
  | .sei => [0x78#8]
  | .clv => [0xB8#8]
  | .nop => [0xEA#8]
  | .ldaImm v => enc2 0xA9#8 v
  | .ldaZp z => enc2 0xA5#8 z
  | .ldaZpx z => enc2 0xB5#8 z
  | .ldaAbs a => enc3 0xAD#8 a
  | .ldaAbsx a => enc3 0xBD#8 a
  | .ldaAbsy a => enc3 0xB9#8 a
  | .ldaIndx z => enc2 0xA1#8 z
  | .ldaIndy z => enc2 0xB1#8 z
  | .ldxImm v => enc2 0xA2#8 v
  | .ldxZp z => enc2 0xA6#8 z
  | .ldxZpy z => enc2 0xB6#8 z
  | .ldxAbs a => enc3 0xAE#8 a
  | .ldxAbsy a => enc3 0xBE#8 a
  | .ldyImm v => enc2 0xA0#8 v
  | .ldyZp z => enc2 0xA4#8 z
  | .ldyZpx z => enc2 0xB4#8 z
  | .ldyAbs a => enc3 0xAC#8 a
  | .ldyAbsx a => enc3 0xBC#8 a
  | .staZp z => enc2 0x85#8 z
  | .staZpx z => enc2 0x95#8 z
  | .staAbs a => enc3 0x8D#8 a
  | .staAbsx a => enc3 0x9D#8 a
  | .staAbsy a => enc3 0x99#8 a
  | .staIndx z => enc2 0x81#8 z
  | .staIndy z => enc2 0x91#8 z
  | .stxZp z => enc2 0x86#8 z
  | .stxZpy z => enc2 0x96#8 z
  | .stxAbs a => enc3 0x8E#8 a
  | .styZp z => enc2 0x84#8 z
  | .styZpx z => enc2 0x94#8 z
  | .styAbs a => enc3 0x8C#8 a

/-- The row of the dispatch table that an instruction comes from. -/
def Instr.row (i : Instr) : Option Row :=
  dispatchTable.find? (fun r => r.mnemonic == i.mnemonic && r.mode == i.mode)

/-- The base cycle cost the table gives an instruction (R311). -/
def Instr.baseCycles (i : Instr) : Nat := (i.row.map (·.cycles)).getD 0

/-- The page-cross class the table gives an instruction (R312). -/
def Instr.pageCross (i : Instr) : PageCross := (i.row.map (·.pageCross)).getD .none

/-- The length in bytes of an instruction (R302). -/
def Instr.length (i : Instr) : Nat := i.mode.length

/-- What an assembler puts in the operand field of a written instruction: for a branch the offset
`(target - (pc0 + 2)) mod 256`, else the number written (R340). -/
def Line.field (l : Line) : Nat :=
  match l.mode with
  | .rel => l.distance % 256
  | _ => l.operand

/-- The instruction a well-formed written instruction stands for (R340). -/
def Line.instr (l : Line) : Option Instr :=
  if l.wf then
    (dispatchTable.find? (fun r => r.mnemonic == l.mnemonic && r.mode == l.mode)).map fun r =>
      match r.form with
      | .f1 i => i
      | .f2 build => build (BitVec.ofNat 8 l.field)
      | .f3 build => build (BitVec.ofNat 16 l.field)
  else none

/-- The bytes an assembler writes for a written instruction, `none` where it refuses (R340). -/
def Line.assemble (l : Line) : Option (List Byte) := l.instr.map encode

/-- The zero-page mode an absolute mode shrinks to. -/
def Mode.zeroPageForm : Mode → Option Mode
  | .abs => some .zp
  | .absx => some .zpx
  | .absy => some .zpy
  | _ => none

/-- "An assembler encodes a zero-page address in zp form when one exists, otherwise in abs form" (R340). -/
def Line.shrink (l : Line) : Line :=
  match l.mode.zeroPageForm with
  | some z => if l.operand < 256 && l.mnemonic.modes.contains z then { l with mode := z } else l
  | none => l

end Sys2Proof
end

