-- ==== Sys2Proof/Machine/Flags.lean ====
section
/-! DEFINITION. The status register's bits (10_state.md R106) and the flag logic unit (R110 to R114): SetZN, AddBinary,
CompareFlags, SetZ_ClearN, and decimal adjustment (40_arithmetic.md R403). -/

namespace Sys2Proof.Machine

/-- The bits of P (R106); `U` is the unused bit 5 (R107). -/
inductive Flag where
  | C | Z | I | D | B | U | V | N
  deriving DecidableEq, Repr

/-- The bit number of a flag (R106). -/
def flagBit : Flag → Nat
  | .C => 0
  | .Z => 1
  | .I => 2
  | .D => 3
  | .B => 4
  | .U => 5
  | .V => 6
  | .N => 7

/-- `P.f`, read. -/
def flag (f : Flag) (p : Byte) : Bool := p.getLsbD (flagBit f)

/-- A byte with bit `n` alone at the value `b`. -/
def bitAt (n : Nat) (b : Bool) : Byte := (BitVec.ofBool b).setWidth 8 <<< n

/-- `P.f <- b`: that bit only (R13). -/
def setFlag (f : Flag) (b : Bool) (p : Byte) : Byte :=
  (p &&& ~~~ bitAt (flagBit f) true) ||| bitAt (flagBit f) b

/-- `SetZN(v)` (R110). -/
def setZN (v p : Byte) : Byte := setFlag .N (v.getLsbD 7) (setFlag .Z (v == 0#8) p)

/-- `SetZ_ClearN(v)` (R113), of LSR and ROR. -/
def setZClearN (v p : Byte) : Byte := setFlag .N false (setFlag .Z (v == 0#8) p)

/-- `CompareFlags(reg, m)` (R112). -/
def compareFlags (reg m p : Byte) : Byte :=
  let t := reg - m
  setFlag .N (t.getLsbD 7) (setFlag .Z (t == 0#8) (setFlag .C (decide (m.toNat ≤ reg.toNat)) p))

/-- What an addition or subtraction yields: result byte, carry, overflow. -/
structure Alu where
  r : Byte
  c : Bool
  v : Bool
  deriving DecidableEq, Repr

/-- `AddBinary(a, b, cin)` (R111). -/
def addBinary (a b : Byte) (cin : Bool) : Alu :=
  let s : BitVec 9 := a.setWidth 9 + b.setWidth 9 + (BitVec.ofBool cin).setWidth 9
  let r : Byte := s.setWidth 8
  { r := r, c := s.getLsbD 8, v := ((~~~ (a ^^^ b)) &&& (a ^^^ r)).getLsbD 7 }

/-- Which of the two operations decimal adjustment is for (R403). -/
inductive DecOp where
  | add | sub
  deriving DecidableEq, Repr

/-- The type of the parameter DEC_ADJ (R10, R403): operation, A, operand byte, carry in. -/
abbrev DecAdj := DecOp → Byte → Byte → Bool → Alu

/-- The spec's reference DEC_ADJ (R403, the spec's decision D6; unsafe where P.D = 1, log 4): the binary result, carry and
overflow, then 6 added to or taken from the result where its low nibble exceeds 9. -/
def decAdjReference : DecAdj
  | .add, a, m, cin =>
    let o := addBinary a m cin
    if 9 < (o.r &&& 0x0F#8).toNat then { o with r := o.r + 6#8 } else o
  | .sub, a, m, cin =>
    let o := addBinary a (~~~ m) cin
    if 9 < (o.r &&& 0x0F#8).toNat then { o with r := o.r - 6#8 } else o

/-- C, V, Z and N after ADC or SBC (R400, R401). -/
def setAluFlags (o : Alu) (p : Byte) : Byte := setZN o.r (setFlag .V o.v (setFlag .C o.c p))

end Sys2Proof.Machine
end

