-- ==== Sys2Proof/Machine/Memory.lean ====
section
/-! DEFINITION. Memory: the 64 KiB byte space (20_memory.md R200) as a list of cells in one canonical form: addresses strictly
rising and below 65536, and no cell that holds what an unlisted address reads as. -/

namespace Sys2Proof.Machine

/-- The listed cells of memory; every other address reads `Config.unlistedByte` (R203, log 1). -/
abbrev Memory := List Host.Cell

/-- The byte at an address (R202). -/
def Memory.read : Memory → Nat → Byte
  | [], _ => Config.unlistedByte
  | (k, v) :: m, a => if k = a then v else Memory.read m a

/-- One cell in front of a memory, left out where the memory reads that byte there anyway. -/
def Memory.cons (a : Nat) (v : Byte) (m : Memory) : Memory :=
  if v = Config.unlistedByte then m else (a, v) :: m

/-- Memory after a byte is written (R204). -/
def Memory.write : Memory → Nat → Byte → Memory
  | [], a, v => Memory.cons a v []
  | (k, w) :: m, a, v =>
    if a < k then Memory.cons a v ((k, w) :: m)
    else if a = k then Memory.cons a v m
    else (k, w) :: Memory.write m a v

/-- The canonical form of a memory whose addresses are all at least `lo`. -/
def Memory.wfFrom : Nat → Memory → Bool
  | _, [] => true
  | lo, (k, v) :: m => decide (lo ≤ k) && decide (k < 65536) && v != Config.unlistedByte && Memory.wfFrom (k + 1) m

/-- The canonical form of memory. -/
def Memory.wf (m : Memory) : Bool := Memory.wfFrom 0 m

end Sys2Proof.Machine
end

