-- ==== Sys2Proof/Machine/State.lean ====
section
/-! DEFINITION. The machine's state as plain data: the register file (10_state.md R100), memory (20_memory.md R200), and the
model's own record of the bus accesses of the current transaction; the reasons a step can stop; the state after reset. -/

namespace Sys2Proof.Machine

/-- One bus access of the block (R207: always one byte; R208): a `read(addr)` or a `write(addr, v)`. -/
inductive Access where
  | read (a : Addr)
  | write (a : Addr) (v : Byte)
  deriving DecidableEq, Repr

/-- The register file of R100, the memory the host holds behind `read` and `write`, and the access record. -/
structure State where
  /-- accumulator -/
  a : Byte
  /-- index register -/
  x : Byte
  /-- index register -/
  y : Byte
  /-- stack pointer: an offset into page 0x01 (R104) -/
  sp : Byte
  /-- program counter (R105) -/
  pc : Addr
  /-- status flags, bit-packed (R106) -/
  p : Byte
  /-- total elapsed instruction cycles since power-on (R109) -/
  cycles : BitVec 64
  /-- the 64 KiB of memory behind the bus (R200, R202) -/
  mem : Memory
  /-- The MODEL'S OWN field (log 5), no state of the block (R118): the bus accesses of the transaction in progress or just
  ended, oldest first, which R126 and R208 give a transaction as its bus use. No step reads it. -/
  bus : List Access
  deriving DecidableEq, Repr

/-- The faults of a step. There is exactly one (R602). -/
inductive Fault where
  /-- The opcode byte `op` at PC is one of the 105 UNDEFINED values (R313, R600). Raised by `step` alone, before any effect.
  Safe: the block stops there too (R601); a host's recovery is not modelled (log 15). -/
  | unknownOpcode (op : Byte)
  deriving DecidableEq, Repr

/-- The refusals of a step. -/
inductive Refusal where
  /-- An instruction with no meaning yet. No arm of `exec` answers it. Safe: nothing is claimed of such an instruction. -/
  | notModelled (mnemonic : String)
  deriving DecidableEq, Repr

/-- What a meaning answers. -/
abbrev Result := Host.Outcome State Fault Refusal

/-- The state with `a` replaced. -/
def State.setA (s : State) (v : Byte) : State := { s with a := v }

/-- The state with `x` replaced. -/
def State.setX (s : State) (v : Byte) : State := { s with x := v }

/-- The state with `y` replaced. -/
def State.setY (s : State) (v : Byte) : State := { s with y := v }

/-- The state with `sp` replaced. -/
def State.setSP (s : State) (v : Byte) : State := { s with sp := v }

/-- The state with `pc` replaced. -/
def State.setPC (s : State) (v : Addr) : State := { s with pc := v }

/-- The state with `p` replaced. -/
def State.setP (s : State) (v : Byte) : State := { s with p := v }

/-- The state with `cycles` replaced. -/
def State.setCycles (s : State) (v : BitVec 64) : State := { s with cycles := v }

/-- The state with `mem` replaced. -/
def State.setMem (s : State) (v : Memory) : State := { s with mem := v }

/-- The state with `bus` replaced. -/
def State.setBus (s : State) (v : List Access) : State := { s with bus := v }

/-- The state with one more access recorded. -/
def State.logged (s : State) (e : Access) : State := { s with bus := s.bus ++ [e] }

/-- Power-on under the parameters INIT_REGS and INIT_MEM (R10): the register file as the host creates it (R700), over memory as
the host provides it (R203). -/
def State.initial (a x y sp : Byte) (pc : Addr) (p : Byte) (cycles : BitVec 64) (mem : Memory) : State :=
  { a := a, x := x, y := y, sp := sp, pc := pc, p := p, cycles := cycles, mem := mem, bus := [] }

/-- Power-on at the values of INIT_REGS and INIT_MEM that Config names, nothing listed in memory. DESIGN CHOICE (unsafe, logs 1
and 2). -/
def State.powerOn : State :=
  .initial Config.initByte Config.initByte Config.initByte Config.initByte Config.initPC Config.initByte Config.initCycles []

/-- The machine right after reset: SP is 3 below its power-on value, PC is the reset vector's contents, A, X, Y, P and cycles
are as the host left them, memory is unchanged, and the only accesses made are the two vector reads (R702, R703). -/
def State.reset : State :=
  { State.powerOn with
    sp := 0xFD#8, pc := 0x0000#16,
    bus := [.read Config.resetVector, .read (Config.resetVector + 1#16)] }

end Sys2Proof.Machine
end

