-- ==== Sys2Proof/Machine/Ops.lean ====
section
/-! DEFINITION. The named operations over memory and registers: the memory primitives (00_scope.md R14) over the parameter
BUS_READ (R10; 20_memory.md R202), the stack (R15), the
end of an instruction (10_state.md R123, R124), the trap entry and return (60_exceptions.md R620, R630), the `reset`
transaction (70_reset_and_hazards.md R702) and what the host may do between transactions (20_memory.md R214). -/

namespace Sys2Proof.Machine

/-- A value an operation read, and the state after the reading. -/
structure Got (α : Type) where
  val : α
  st : State

/-- The parameter BUS_READ (R10, R201): what the host's `read(a)` answers in a state, and what the host's memory is after it.
It sees the whole state, the cycles and the accesses made so far among it, so that an answer may differ from one read of an
address to the next; it can change nothing but the host's own memory. -/
abbrev BusRead := State → Addr → Byte × Memory

/-- The spec's reference BUS_READ, plain RAM (R202, log 3): the byte in memory, and memory as it was. -/
def plainRam : BusRead := fun s a => (s.mem.read a.toNat, s.mem)

/-- `MemRead(a, 1)` (R14): one `read(a)` of the host, recorded. Here and in every operation below that reads, BUS_READ is the
last argument, and where it is not written it is the reference. -/
def memRead (a : Addr) (s : State) (bus : BusRead := plainRam) : Got Byte :=
  ⟨(bus s a).1, { s with mem := (bus s a).2, bus := s.bus ++ [.read a] }⟩

/-- `MemWrite(a, 1, v)` (R14): one `write(a, v)` (R204), recorded. -/
def memWrite (a : Addr) (v : Byte) (s : State) : State :=
  (s.setMem (s.mem.write a.toNat v)).logged (.write a v)

/-- The bytes at `lo` and then at `hi` as one 16-bit value: every 16-bit value in memory is read so, low byte first (R205). -/
def readPair (lo hi : Addr) (s : State) (bus : BusRead := plainRam) : Got Addr :=
  let l := memRead lo s bus
  let h := memRead hi l.st bus
  ⟨wordOf h.val l.val, h.st⟩

/-- `Read16(a)`: the high byte's address wraps modulo 65536 (R14). -/
def read16 (a : Addr) (s : State) (bus : BusRead := plainRam) : Got Addr := readPair a (a + 1#16) s bus

/-- `Read16zp(z)`: the high byte's address wraps within page 0 (R14). -/
def read16zp (z : Byte) (s : State) (bus : BusRead := plainRam) : Got Addr :=
  readPair (zext16 z) (zext16 (z + 1#8)) s bus

/-- The pointer read of JMP (abs): the high byte comes from the page of `ptr` (R329, R521). -/
def read16page (ptr : Addr) (s : State) (bus : BusRead := plainRam) : Got Addr :=
  readPair ptr ((ptr &&& 0xFF00#16) ||| ((ptr + 1#16) &&& 0x00FF#16)) s bus

/-- `Push(v)`: write at 0x0100 | SP, then SP - 1 (R15). -/
def push (v : Byte) (s : State) : State := (memWrite (stackAddr s.sp) v s).setSP (s.sp - 1#8)

/-- `Pull()`: SP + 1, then read at 0x0100 | SP (R15). -/
def pull (s : State) (bus : BusRead := plainRam) : Got Byte :=
  memRead (stackAddr (s.sp + 1#8)) (s.setSP (s.sp + 1#8)) bus

/-- A 16-bit value pushed, high byte first (R206). -/
def push16 (v : Addr) (s : State) : State := push (loByte v) (push (hiByte v) s)

/-- A 16-bit value pulled, low byte first (R206). -/
def pull16 (s : State) (bus : BusRead := plainRam) : Got Addr :=
  let l := pull s bus
  let h := pull l.st bus
  ⟨wordOf h.val l.val, h.st⟩

/-- `cycles <- cycles + n`, modulo 2^64 (R16, R109). -/
def charge (n : Nat) (s : State) : State := s.setCycles (s.cycles + BitVec.ofNat 64 n)

/-- A control transfer: `PC <- t; cycles <- cycles + n`. -/
def goto (t : Addr) (n : Nat) (s : State) : State := charge n (s.setPC t)

/-- The end of an instruction that does not transfer control: `PC <- (pc0 + len) mod 65536; cycles <- cycles + n` (R123, R124).
During an instruction PC still holds `pc0`. -/
def finish (len n : Nat) (s : State) : State := goto (s.pc + BitVec.ofNat 16 len) n s

/-- Trap entry (R620, R526), the block's only one: B is set in P itself, the return address is pushed high byte first and then
P with B set, I is set, and PC is read from the BRK vector. -/
def trapEntry (ret : Addr) (s : State) (bus : BusRead := plainRam) : State :=
  let s1 := s.setP (setFlag .B true s.p)
  let s2 := push16 ret s1
  let s3 := push s2.p s2
  let s4 := s3.setP (setFlag .I true s3.p)
  let v := read16 Config.brkVector s4 bus
  v.st.setPC v.val

/-- Trap return (R630, R527): all eight bits of P are pulled, then PC, which is not incremented. -/
def trapReturn (s : State) (bus : BusRead := plainRam) : State :=
  let p := pull s bus
  let t := pull16 (p.st.setP p.val) bus
  t.st.setPC t.val

/-- The `reset` transaction (R702), the block's second: SP - 3 with nothing written, PC from the reset vector, nothing else
touched. It begins a transaction, so its own accesses are the whole record. -/
def resetTransaction (s : State) (bus : BusRead := plainRam) : State :=
  let v := read16 Config.resetVector ((s.setBus []).setSP (s.sp - 3#8)) bus
  v.st.setPC v.val

/-- The host writes a byte of memory between two transactions (R214). It is no access of the block, so it is not recorded. -/
def hostWrite (a : Addr) (v : Byte) (s : State) : State := s.setMem (s.mem.write a.toNat v)

/-- The host sets the whole register file between two transactions (R100, R700, R701): it owns it. -/
def hostSetRegs (a x y sp : Byte) (pc : Addr) (p : Byte) (cycles : BitVec 64) (s : State) : State :=
  { s with a := a, x := x, y := y, sp := sp, pc := pc, p := p, cycles := cycles }

end Sys2Proof.Machine
end

