-- ==== Sys2Proof/Machine/Operands.lean ====
section
/-! DEFINITION. The addressing-mode resolver (30_encoding.md R320 to R331): effective address and page-cross report of every
memory mode, and the read, write and read-modify-write sides that use it. -/

namespace Sys2Proof.Machine

/-- What the resolver returns: the effective address, the page-cross report of this resolution alone (R117, R321), and the
state after the mode's pointer reads. -/
structure Resolved where
  ea : Addr
  crossed : Bool
  st : State

/-- An address indexed from a base: the sum wraps modulo 65536, and the report says whether it left the base's page (R321). -/
def indexed (base : Addr) (index : Byte) (s : State) : Resolved :=
  let ea := base + zext16 index
  ⟨ea, crossed base ea, s⟩

/-- The resolver, mode by mode (R324 to R328). -/
def resolve (m : MemMode) (s : State) (bus : BusRead := plainRam) : Resolved :=
  match m with
  | .zp z => ⟨zext16 z, false, s⟩
  | .zpx z => ⟨zext16 (z + s.x), false, s⟩
  | .zpy z => ⟨zext16 (z + s.y), false, s⟩
  | .abs a => ⟨a, false, s⟩
  | .absx a => indexed a s.x s
  | .absy a => indexed a s.y s
  | .indx z =>
    let p := read16zp (z + s.x) s bus
    ⟨p.val, false, p.st⟩
  | .indy z =>
    let p := read16zp z s bus
    indexed p.val s.y p.st

/-- A read operand: the byte, the cycle a page crossing adds (R312), and the state after the reads. -/
structure Loaded where
  val : Byte
  extra : Nat
  st : State

/-- The read side of the resolver: the immediate byte itself (R323), or one read at EA (R331). -/
def load (src : Source) (s : State) (bus : BusRead := plainRam) : Loaded :=
  match src with
  | .imm v => ⟨v, 0, s⟩
  | .mem m =>
    let r := resolve m s bus
    let b := memRead r.ea r.st bus
    ⟨b.val, if r.crossed then 1 else 0, b.st⟩

/-- The length of an instruction with a read operand (R302). -/
def srcLength (src : Source) : Nat := src.operand.mode.length

/-- The write side of the resolver: one write at EA, with no read there (R331). -/
def storeAt (m : MemMode) (v : Byte) (s : State) (bus : BusRead := plainRam) : State :=
  let r := resolve m s bus
  memWrite r.ea v r.st

/-- A read-modify-write of memory: EA resolved once, one read, the new byte and the new P computed from the byte read and the
old P, one write (R331, R444). -/
def modifyMem (m : MemMode) (f : Byte → Byte → Byte × Byte) (s : State) (bus : BusRead := plainRam) : State :=
  let r := resolve m s bus
  let b := memRead r.ea r.st bus
  let o := f b.val s.p
  (memWrite r.ea o.1 b.st).setP o.2

/-- A read-modify-write of the accumulator or of memory (R444). -/
def modify (t : Target) (f : Byte → Byte → Byte × Byte) (s : State) (bus : BusRead := plainRam) : State :=
  match t with
  | .acc =>
    let o := f s.a s.p
    (s.setA o.1).setP o.2
  | .mem m => modifyMem m f s bus

/-- The pointer reads a mode makes, in order (R326, R327; R208 item 3): stated apart from the resolver, for its laws. -/
def pointerReads (m : MemMode) (s : State) : List Access :=
  match m with
  | .indx z => [.read (zext16 (z + s.x)), .read (zext16 (z + s.x + 1#8))]
  | .indy z => [.read (zext16 z), .read (zext16 (z + 1#8))]
  | _ => []

/-- The reads a read operand makes, in order (R208 items 3 and 4). -/
def loadReads (src : Source) (s : State) : List Access :=
  match src with
  | .imm _ => []
  | .mem m => pointerReads m s ++ [.read (resolve m s).ea]

/-- The length of an instruction with a shift or rotate operand (R302). -/
def tgtLength (t : Target) : Nat := t.operand.mode.length

end Sys2Proof.Machine
end

