-- ==== Sys2Proof/Machine/Arithmetic.lean ====
section
/-! DEFINITION. ADC and SBC (40_arithmetic.md). The shared operations take DEC_ADJ as an argument (R403, log 4). -/

namespace Sys2Proof.Machine

/-- The sum ADC forms from A, the operand byte and P (R400). -/
def aluAdd (adj : DecAdj) (a m p : Byte) : Alu :=
  if flag .D p then adj .add a m (flag .C p) else addBinary a m (flag .C p)

/-- The difference SBC forms from A, the operand byte and P (R401); C is "not borrow". -/
def aluSub (adj : DecAdj) (a m p : Byte) : Alu :=
  if flag .D p then adj .sub a m (flag .C p) else addBinary a (~~~ m) (flag .C p)

/-- ADC under a decimal adjustment `adj` (R400): A, C, V, Z, N from A + m + C. -/
def adcWith (adj : DecAdj) (base : Nat) (src : Source) (s : State) (bus : BusRead := plainRam) : State :=
  let m := load src s bus
  let o := aluAdd adj s.a m.val s.p
  finish (srcLength src) (base + m.extra) ((m.st.setA o.r).setP (setAluFlags o s.p))

/-- SBC under a decimal adjustment `adj` (R401): A, C, V, Z, N from A + ~m + C. -/
def sbcWith (adj : DecAdj) (base : Nat) (src : Source) (s : State) (bus : BusRead := plainRam) : State :=
  let m := load src s bus
  let o := aluSub adj s.a m.val s.p
  finish (srcLength src) (base + m.extra) ((m.st.setA o.r).setP (setAluFlags o s.p))

/-- ADC under the spec's reference DEC_ADJ. -/
def adc (base : Nat) (src : Source) (s : State) : State := adcWith decAdjReference base src s

/-- SBC under the spec's reference DEC_ADJ. -/
def sbc (base : Nat) (src : Source) (s : State) : State := sbcWith decAdjReference base src s

/-- ADC #v (0x69): R400, R323; base cycles 2. -/
def execAdcImm (v : Byte) (s : State) : Result :=
  .next (adc 2 (.imm v) s)

/-- ADC zp (0x65): R400, R324; base cycles 3. -/
def execAdcZp (z : Byte) (s : State) : Result :=
  .next (adc 3 (.mem (.zp z)) s)

/-- ADC zp,X (0x75): R400, R325; base cycles 4. -/
def execAdcZpx (z : Byte) (s : State) : Result :=
  .next (adc 4 (.mem (.zpx z)) s)

/-- ADC abs (0x6D): R400, R328; base cycles 4. -/
def execAdcAbs (a : Addr) (s : State) : Result :=
  .next (adc 4 (.mem (.abs a)) s)

/-- ADC abs,X (0x7D): R400, R328; base cycles 4. -/
def execAdcAbsx (a : Addr) (s : State) : Result :=
  .next (adc 4 (.mem (.absx a)) s)

/-- ADC abs,Y (0x79): R400, R328; base cycles 4. -/
def execAdcAbsy (a : Addr) (s : State) : Result :=
  .next (adc 4 (.mem (.absy a)) s)

/-- ADC (zp,X) (0x61): R400, R326; base cycles 6. -/
def execAdcIndx (z : Byte) (s : State) : Result :=
  .next (adc 6 (.mem (.indx z)) s)

/-- ADC (zp),Y (0x71): R400, R327; base cycles 5. -/
def execAdcIndy (z : Byte) (s : State) : Result :=
  .next (adc 5 (.mem (.indy z)) s)

/-- SBC #v (0xE9): R401, R323; base cycles 2. -/
def execSbcImm (v : Byte) (s : State) : Result :=
  .next (sbc 2 (.imm v) s)

/-- SBC zp (0xE5): R401, R324; base cycles 3. -/
def execSbcZp (z : Byte) (s : State) : Result :=
  .next (sbc 3 (.mem (.zp z)) s)

/-- SBC zp,X (0xF5): R401, R325; base cycles 4. -/
def execSbcZpx (z : Byte) (s : State) : Result :=
  .next (sbc 4 (.mem (.zpx z)) s)

/-- SBC abs (0xED): R401, R328; base cycles 4. -/
def execSbcAbs (a : Addr) (s : State) : Result :=
  .next (sbc 4 (.mem (.abs a)) s)

/-- SBC abs,X (0xFD): R401, R328; base cycles 4. -/
def execSbcAbsx (a : Addr) (s : State) : Result :=
  .next (sbc 4 (.mem (.absx a)) s)

/-- SBC abs,Y (0xF9): R401, R328; base cycles 4. -/
def execSbcAbsy (a : Addr) (s : State) : Result :=
  .next (sbc 4 (.mem (.absy a)) s)

/-- SBC (zp,X) (0xE1): R401, R326; base cycles 6. -/
def execSbcIndx (z : Byte) (s : State) : Result :=
  .next (sbc 6 (.mem (.indx z)) s)

/-- SBC (zp),Y (0xF1): R401, R327; base cycles 5. -/
def execSbcIndy (z : Byte) (s : State) : Result :=
  .next (sbc 5 (.mem (.indy z)) s)

end Sys2Proof.Machine
end

