-- ==== Sys2Proof/Machine/Branch.lean ====
section
/-! DEFINITION. The eight branches (45_branch.md). -/

namespace Sys2Proof.Machine

/-- What all branches share (R500): 2 cycles and the next instruction when not taken; when taken, 3 cycles, and 1 more where
the target is on another page than the next instruction. -/
def branch (cond : Bool) (off : Byte) (s : State) : State :=
  let next := s.pc + 2#16
  let target := next + sext16 off
  if cond then goto target (3 + if crossed next target then 1 else 0) s else goto next 2 s

/-- BCC rel (0x90): R501; cycles 2, 3 or 4. -/
def execBcc (off : Byte) (s : State) : Result :=
  .next (branch (!flag .C s.p) off s)

/-- BCS rel (0xB0): R502; cycles 2, 3 or 4. -/
def execBcs (off : Byte) (s : State) : Result :=
  .next (branch (flag .C s.p) off s)

/-- BEQ rel (0xF0): R503; cycles 2, 3 or 4. -/
def execBeq (off : Byte) (s : State) : Result :=
  .next (branch (flag .Z s.p) off s)

/-- BNE rel (0xD0): R504; cycles 2, 3 or 4. -/
def execBne (off : Byte) (s : State) : Result :=
  .next (branch (!flag .Z s.p) off s)

/-- BMI rel (0x30): R505; cycles 2, 3 or 4. -/
def execBmi (off : Byte) (s : State) : Result :=
  .next (branch (flag .N s.p) off s)

/-- BPL rel (0x10): R506; cycles 2, 3 or 4. -/
def execBpl (off : Byte) (s : State) : Result :=
  .next (branch (!flag .N s.p) off s)

/-- BVC rel (0x50): R507; cycles 2, 3 or 4. -/
def execBvc (off : Byte) (s : State) : Result :=
  .next (branch (!flag .V s.p) off s)

/-- BVS rel (0x70): R508; cycles 2, 3 or 4. -/
def execBvs (off : Byte) (s : State) : Result :=
  .next (branch (flag .V s.p) off s)

end Sys2Proof.Machine
end

