-- ==== Sys2Proof/Machine/Compare.lean ====
section
/-! DEFINITION. CMP, CPX and CPY (44_compare.md): flags only, the register is untouched. -/

namespace Sys2Proof.Machine

/-- A compare of the register value `reg` with the operand (R480 to R482). A form without a page-cross cycle has no indexed
mode, so its `extra` is 0. -/
def compareReg (reg : Byte) (base : Nat) (src : Source) (s : State) (bus : BusRead := plainRam) : State :=
  let m := load src s bus
  finish (srcLength src) (base + m.extra) (m.st.setP (compareFlags reg m.val s.p))

/-- CMP #v (0xC9): R480, R323; base cycles 2. -/
def execCmpImm (v : Byte) (s : State) : Result :=
  .next (compareReg s.a 2 (.imm v) s)

/-- CMP zp (0xC5): R480, R324; base cycles 3. -/
def execCmpZp (z : Byte) (s : State) : Result :=
  .next (compareReg s.a 3 (.mem (.zp z)) s)

/-- CMP zp,X (0xD5): R480, R325; base cycles 4. -/
def execCmpZpx (z : Byte) (s : State) : Result :=
  .next (compareReg s.a 4 (.mem (.zpx z)) s)

/-- CMP abs (0xCD): R480, R328; base cycles 4. -/
def execCmpAbs (a : Addr) (s : State) : Result :=
  .next (compareReg s.a 4 (.mem (.abs a)) s)

/-- CMP abs,X (0xDD): R480, R328; base cycles 4. -/
def execCmpAbsx (a : Addr) (s : State) : Result :=
  .next (compareReg s.a 4 (.mem (.absx a)) s)

/-- CMP abs,Y (0xD9): R480, R328; base cycles 4. -/
def execCmpAbsy (a : Addr) (s : State) : Result :=
  .next (compareReg s.a 4 (.mem (.absy a)) s)

/-- CMP (zp,X) (0xC1): R480, R326; base cycles 6. -/
def execCmpIndx (z : Byte) (s : State) : Result :=
  .next (compareReg s.a 6 (.mem (.indx z)) s)

/-- CMP (zp),Y (0xD1): R480, R327; base cycles 5. -/
def execCmpIndy (z : Byte) (s : State) : Result :=
  .next (compareReg s.a 5 (.mem (.indy z)) s)

/-- CPX #v (0xE0): R481, R323; base cycles 2. -/
def execCpxImm (v : Byte) (s : State) : Result :=
  .next (compareReg s.x 2 (.imm v) s)

/-- CPX zp (0xE4): R481, R324; base cycles 3. -/
def execCpxZp (z : Byte) (s : State) : Result :=
  .next (compareReg s.x 3 (.mem (.zp z)) s)

/-- CPX abs (0xEC): R481, R328; base cycles 4. -/
def execCpxAbs (a : Addr) (s : State) : Result :=
  .next (compareReg s.x 4 (.mem (.abs a)) s)

/-- CPY #v (0xC0): R482, R323; base cycles 2. -/
def execCpyImm (v : Byte) (s : State) : Result :=
  .next (compareReg s.y 2 (.imm v) s)

/-- CPY zp (0xC4): R482, R324; base cycles 3. -/
def execCpyZp (z : Byte) (s : State) : Result :=
  .next (compareReg s.y 3 (.mem (.zp z)) s)

/-- CPY abs (0xCC): R482, R328; base cycles 4. -/
def execCpyAbs (a : Addr) (s : State) : Result :=
  .next (compareReg s.y 4 (.mem (.abs a)) s)

end Sys2Proof.Machine
end

