-- ==== Sys2Proof/Machine/IncDec.lean ====
section
/-! DEFINITION. INC, DEC, INX, INY, DEX and DEY (43_incdec.md): wrap modulo 256, Z and N, no C and no V. -/

namespace Sys2Proof.Machine

/-- INC or DEC of a byte: the result and the new P (R460, R461); `d` is 1 or -1. -/
def stepByte (d : Byte) (v p : Byte) : Byte × Byte := (v + d, setZN (v + d) p)

/-- INC or DEC of memory (R460, R461). -/
def stepMem (d : Byte) (base : Nat) (m : MemMode) (s : State) (bus : BusRead := plainRam) : State :=
  finish m.mode.length base (modifyMem m (stepByte d) s bus)

/-- INC zp (0xE6): R460, R324; base cycles 5. -/
def execIncZp (z : Byte) (s : State) : Result :=
  .next (stepMem 1#8 5 (.zp z) s)

/-- INC zp,X (0xF6): R460, R325; base cycles 6. -/
def execIncZpx (z : Byte) (s : State) : Result :=
  .next (stepMem 1#8 6 (.zpx z) s)

/-- INC abs (0xEE): R460, R328; base cycles 6. -/
def execIncAbs (a : Addr) (s : State) : Result :=
  .next (stepMem 1#8 6 (.abs a) s)

/-- INC abs,X (0xFE): R460, R328; base cycles 7. -/
def execIncAbsx (a : Addr) (s : State) : Result :=
  .next (stepMem 1#8 7 (.absx a) s)

/-- DEC zp (0xC6): R461, R324; base cycles 5. -/
def execDecZp (z : Byte) (s : State) : Result :=
  .next (stepMem (-1#8) 5 (.zp z) s)

/-- DEC zp,X (0xD6): R461, R325; base cycles 6. -/
def execDecZpx (z : Byte) (s : State) : Result :=
  .next (stepMem (-1#8) 6 (.zpx z) s)

/-- DEC abs (0xCE): R461, R328; base cycles 6. -/
def execDecAbs (a : Addr) (s : State) : Result :=
  .next (stepMem (-1#8) 6 (.abs a) s)

/-- DEC abs,X (0xDE): R461, R328; base cycles 7. -/
def execDecAbsx (a : Addr) (s : State) : Result :=
  .next (stepMem (-1#8) 7 (.absx a) s)

/-- INX (0xE8): R462, R320; base cycles 2. -/
def execInx (s : State) : Result :=
  .next (finish 1 2 ((s.setX (s.x + 1#8)).setP (setZN (s.x + 1#8) s.p)))

/-- INY (0xC8): R463, R320; base cycles 2. -/
def execIny (s : State) : Result :=
  .next (finish 1 2 ((s.setY (s.y + 1#8)).setP (setZN (s.y + 1#8) s.p)))

/-- DEX (0xCA): R464, R320; base cycles 2. -/
def execDex (s : State) : Result :=
  .next (finish 1 2 ((s.setX (s.x - 1#8)).setP (setZN (s.x - 1#8) s.p)))

/-- DEY (0x88): R465, R320; base cycles 2. -/
def execDey (s : State) : Result :=
  .next (finish 1 2 ((s.setY (s.y - 1#8)).setP (setZN (s.y - 1#8) s.p)))

end Sys2Proof.Machine
end

