-- ==== Sys2Proof/Machine/Jump.lean ====
section
/-! DEFINITION. JMP, JSR, RTS, BRK and RTI (46_jump_call_break.md). -/

namespace Sys2Proof.Machine

/-- `JMP (ptr)`: the target is read at the pointer, its high byte from the pointer's own page (R521). -/
def jumpIndirect (ptr : Addr) (s : State) (bus : BusRead := plainRam) : State :=
  let t := read16page ptr s bus
  goto t.val 5 t.st

/-- The return from a subroutine: the pulled address plus 1 (R523). -/
def returnSub (s : State) (bus : BusRead := plainRam) : State :=
  let t := pull16 s bus
  goto (t.val + 1#16) 6 t.st

/-- JMP abs (0x4C): R520, R328; base cycles 3. -/
def execJmpAbs (a : Addr) (s : State) : Result :=
  .next (goto a 3 s)

/-- JMP (abs) (0x6C): R521, R329, with the page-wrap quirk; base cycles 5. -/
def execJmpInd (a : Addr) (s : State) : Result :=
  .next (jumpIndirect a s)

/-- JSR abs (0x20): R522; pushes pc0 + 2, the address of its own last byte, high byte first; base cycles 6. -/
def execJsr (a : Addr) (s : State) : Result :=
  .next (goto a 6 (push16 (s.pc + 2#16) s))

/-- RTS (0x60): R523; the pulled address plus 1; base cycles 6. -/
def execRts (s : State) : Result :=
  .next (returnSub s)

/-- BRK (0x00): R526; the return address is pc0 + 2, past the padding byte, which is not read; base cycles 7. -/
def execBrk (s : State) : Result :=
  .next (charge 7 (trapEntry (s.pc + 2#16) s))

/-- RTI (0x40): R527; base cycles 6. -/
def execRti (s : State) : Result :=
  .next (charge 6 (trapReturn s))

end Sys2Proof.Machine
end

