-- ==== Sys2Proof/Machine/LoadStore.lean ====
section
/-! DEFINITION. LDA, LDX, LDY, STA, STX and STY (49_load_store.md; the spec supplies them from general knowledge, log 12). -/

namespace Sys2Proof.Machine

/-- A load (R590 to R592): the byte goes to the register `put` writes, and Z and N follow it. -/
def loadReg (put : State → Byte → State) (base : Nat) (src : Source) (s : State) (bus : BusRead := plainRam) : State :=
  let m := load src s bus
  finish (srcLength src) (base + m.extra) ((put m.st m.val).setP (setZN m.val s.p))

/-- A store (R593 to R595): one write at EA, no flag, no page-cross cycle. -/
def storeReg (v : Byte) (base : Nat) (m : MemMode) (s : State) (bus : BusRead := plainRam) : State :=
  finish m.mode.length base (storeAt m v s bus)

/-- LDA #v (0xA9): R590, R323; base cycles 2. -/
def execLdaImm (v : Byte) (s : State) : Result :=
  .next (loadReg State.setA 2 (.imm v) s)

/-- LDA zp (0xA5): R590, R324; base cycles 3. -/
def execLdaZp (z : Byte) (s : State) : Result :=
  .next (loadReg State.setA 3 (.mem (.zp z)) s)

/-- LDA zp,X (0xB5): R590, R325; base cycles 4. -/
def execLdaZpx (z : Byte) (s : State) : Result :=
  .next (loadReg State.setA 4 (.mem (.zpx z)) s)

/-- LDA abs (0xAD): R590, R328; base cycles 4. -/
def execLdaAbs (a : Addr) (s : State) : Result :=
  .next (loadReg State.setA 4 (.mem (.abs a)) s)

/-- LDA abs,X (0xBD): R590, R328; base cycles 4. -/
def execLdaAbsx (a : Addr) (s : State) : Result :=
  .next (loadReg State.setA 4 (.mem (.absx a)) s)

/-- LDA abs,Y (0xB9): R590, R328; base cycles 4. -/
def execLdaAbsy (a : Addr) (s : State) : Result :=
  .next (loadReg State.setA 4 (.mem (.absy a)) s)

/-- LDA (zp,X) (0xA1): R590, R326; base cycles 6. -/
def execLdaIndx (z : Byte) (s : State) : Result :=
  .next (loadReg State.setA 6 (.mem (.indx z)) s)

/-- LDA (zp),Y (0xB1): R590, R327; base cycles 5. -/
def execLdaIndy (z : Byte) (s : State) : Result :=
  .next (loadReg State.setA 5 (.mem (.indy z)) s)

/-- LDX #v (0xA2): R591, R323; base cycles 2. -/
def execLdxImm (v : Byte) (s : State) : Result :=
  .next (loadReg State.setX 2 (.imm v) s)

/-- LDX zp (0xA6): R591, R324; base cycles 3. -/
def execLdxZp (z : Byte) (s : State) : Result :=
  .next (loadReg State.setX 3 (.mem (.zp z)) s)

/-- LDX zp,Y (0xB6): R591, R325; base cycles 4. -/
def execLdxZpy (z : Byte) (s : State) : Result :=
  .next (loadReg State.setX 4 (.mem (.zpy z)) s)

/-- LDX abs (0xAE): R591, R328; base cycles 4. -/
def execLdxAbs (a : Addr) (s : State) : Result :=
  .next (loadReg State.setX 4 (.mem (.abs a)) s)

/-- LDX abs,Y (0xBE): R591, R328; base cycles 4. -/
def execLdxAbsy (a : Addr) (s : State) : Result :=
  .next (loadReg State.setX 4 (.mem (.absy a)) s)

/-- LDY #v (0xA0): R592, R323; base cycles 2. -/
def execLdyImm (v : Byte) (s : State) : Result :=
  .next (loadReg State.setY 2 (.imm v) s)

/-- LDY zp (0xA4): R592, R324; base cycles 3. -/
def execLdyZp (z : Byte) (s : State) : Result :=
  .next (loadReg State.setY 3 (.mem (.zp z)) s)

/-- LDY zp,X (0xB4): R592, R325; base cycles 4. -/
def execLdyZpx (z : Byte) (s : State) : Result :=
  .next (loadReg State.setY 4 (.mem (.zpx z)) s)

/-- LDY abs (0xAC): R592, R328; base cycles 4. -/
def execLdyAbs (a : Addr) (s : State) : Result :=
  .next (loadReg State.setY 4 (.mem (.abs a)) s)

/-- LDY abs,X (0xBC): R592, R328; base cycles 4. -/
def execLdyAbsx (a : Addr) (s : State) : Result :=
  .next (loadReg State.setY 4 (.mem (.absx a)) s)

/-- STA zp (0x85): R593, R324; base cycles 3. -/
def execStaZp (z : Byte) (s : State) : Result :=
  .next (storeReg s.a 3 (.zp z) s)

/-- STA zp,X (0x95): R593, R325; base cycles 4. -/
def execStaZpx (z : Byte) (s : State) : Result :=
  .next (storeReg s.a 4 (.zpx z) s)

/-- STA abs (0x8D): R593, R328; base cycles 4. -/
def execStaAbs (a : Addr) (s : State) : Result :=
  .next (storeReg s.a 4 (.abs a) s)

/-- STA abs,X (0x9D): R593, R328; base cycles 5. -/
def execStaAbsx (a : Addr) (s : State) : Result :=
  .next (storeReg s.a 5 (.absx a) s)

/-- STA abs,Y (0x99): R593, R328; base cycles 5. -/
def execStaAbsy (a : Addr) (s : State) : Result :=
  .next (storeReg s.a 5 (.absy a) s)

/-- STA (zp,X) (0x81): R593, R326; base cycles 6. -/
def execStaIndx (z : Byte) (s : State) : Result :=
  .next (storeReg s.a 6 (.indx z) s)

/-- STA (zp),Y (0x91): R593, R327; base cycles 6. -/
def execStaIndy (z : Byte) (s : State) : Result :=
  .next (storeReg s.a 6 (.indy z) s)

/-- STX zp (0x86): R594, R324; base cycles 3. -/
def execStxZp (z : Byte) (s : State) : Result :=
  .next (storeReg s.x 3 (.zp z) s)

/-- STX zp,Y (0x96): R594, R325; base cycles 4. -/
def execStxZpy (z : Byte) (s : State) : Result :=
  .next (storeReg s.x 4 (.zpy z) s)

/-- STX abs (0x8E): R594, R328; base cycles 4. -/
def execStxAbs (a : Addr) (s : State) : Result :=
  .next (storeReg s.x 4 (.abs a) s)

/-- STY zp (0x84): R595, R324; base cycles 3. -/
def execStyZp (z : Byte) (s : State) : Result :=
  .next (storeReg s.y 3 (.zp z) s)

/-- STY zp,X (0x94): R595, R325; base cycles 4. -/
def execStyZpx (z : Byte) (s : State) : Result :=
  .next (storeReg s.y 4 (.zpx z) s)

/-- STY abs (0x8C): R595, R328; base cycles 4. -/
def execStyAbs (a : Addr) (s : State) : Result :=
  .next (storeReg s.y 4 (.abs a) s)

end Sys2Proof.Machine
end

