-- ==== Sys2Proof/Machine/Logical.lean ====
section
/-! DEFINITION. AND, ORA, EOR and BIT (41_logical.md). -/

namespace Sys2Proof.Machine

/-- `A <- A op m; SetZN(A)` (R420 to R422). -/
def logical (op : Byte → Byte → Byte) (base : Nat) (src : Source) (s : State) (bus : BusRead := plainRam) : State :=
  let m := load src s bus
  let r := op s.a m.val
  finish (srcLength src) (base + m.extra) ((m.st.setA r).setP (setZN r s.p))

/-- BIT (R423): Z from A & m, N and V from bits 7 and 6 of m; A is not written. -/
def bitTest (base : Nat) (m : MemMode) (s : State) (bus : BusRead := plainRam) : State :=
  let b := load (.mem m) s bus
  let p1 := setFlag .Z ((s.a &&& b.val) == 0#8) s.p
  let p2 := setFlag .N (b.val.getLsbD 7) p1
  let p3 := setFlag .V (b.val.getLsbD 6) p2
  finish m.mode.length base (b.st.setP p3)

/-- AND #v (0x29): R420, R323; base cycles 2. -/
def execAndImm (v : Byte) (s : State) : Result :=
  .next (logical (· &&& ·) 2 (.imm v) s)

/-- AND zp (0x25): R420, R324; base cycles 3. -/
def execAndZp (z : Byte) (s : State) : Result :=
  .next (logical (· &&& ·) 3 (.mem (.zp z)) s)

/-- AND zp,X (0x35): R420, R325; base cycles 4. -/
def execAndZpx (z : Byte) (s : State) : Result :=
  .next (logical (· &&& ·) 4 (.mem (.zpx z)) s)

/-- AND abs (0x2D): R420, R328; base cycles 4. -/
def execAndAbs (a : Addr) (s : State) : Result :=
  .next (logical (· &&& ·) 4 (.mem (.abs a)) s)

/-- AND abs,X (0x3D): R420, R328; base cycles 4. -/
def execAndAbsx (a : Addr) (s : State) : Result :=
  .next (logical (· &&& ·) 4 (.mem (.absx a)) s)

/-- AND abs,Y (0x39): R420, R328; base cycles 4. -/
def execAndAbsy (a : Addr) (s : State) : Result :=
  .next (logical (· &&& ·) 4 (.mem (.absy a)) s)

/-- AND (zp,X) (0x21): R420, R326; base cycles 6. -/
def execAndIndx (z : Byte) (s : State) : Result :=
  .next (logical (· &&& ·) 6 (.mem (.indx z)) s)

/-- AND (zp),Y (0x31): R420, R327; base cycles 5. -/
def execAndIndy (z : Byte) (s : State) : Result :=
  .next (logical (· &&& ·) 5 (.mem (.indy z)) s)

/-- ORA #v (0x09): R421, R323; base cycles 2. -/
def execOraImm (v : Byte) (s : State) : Result :=
  .next (logical (· ||| ·) 2 (.imm v) s)

/-- ORA zp (0x05): R421, R324; base cycles 3. -/
def execOraZp (z : Byte) (s : State) : Result :=
  .next (logical (· ||| ·) 3 (.mem (.zp z)) s)

/-- ORA zp,X (0x15): R421, R325; base cycles 4. -/
def execOraZpx (z : Byte) (s : State) : Result :=
  .next (logical (· ||| ·) 4 (.mem (.zpx z)) s)

/-- ORA abs (0x0D): R421, R328; base cycles 4. -/
def execOraAbs (a : Addr) (s : State) : Result :=
  .next (logical (· ||| ·) 4 (.mem (.abs a)) s)

/-- ORA abs,X (0x1D): R421, R328; base cycles 4. -/
def execOraAbsx (a : Addr) (s : State) : Result :=
  .next (logical (· ||| ·) 4 (.mem (.absx a)) s)

/-- ORA abs,Y (0x19): R421, R328; base cycles 4. -/
def execOraAbsy (a : Addr) (s : State) : Result :=
  .next (logical (· ||| ·) 4 (.mem (.absy a)) s)

/-- ORA (zp,X) (0x01): R421, R326; base cycles 6. -/
def execOraIndx (z : Byte) (s : State) : Result :=
  .next (logical (· ||| ·) 6 (.mem (.indx z)) s)

/-- ORA (zp),Y (0x11): R421, R327; base cycles 5. -/
def execOraIndy (z : Byte) (s : State) : Result :=
  .next (logical (· ||| ·) 5 (.mem (.indy z)) s)

/-- EOR #v (0x49): R422, R323; base cycles 2. -/
def execEorImm (v : Byte) (s : State) : Result :=
  .next (logical (· ^^^ ·) 2 (.imm v) s)

/-- EOR zp (0x45): R422, R324; base cycles 3. -/
def execEorZp (z : Byte) (s : State) : Result :=
  .next (logical (· ^^^ ·) 3 (.mem (.zp z)) s)

/-- EOR zp,X (0x55): R422, R325; base cycles 4. -/
def execEorZpx (z : Byte) (s : State) : Result :=
  .next (logical (· ^^^ ·) 4 (.mem (.zpx z)) s)

/-- EOR abs (0x4D): R422, R328; base cycles 4. -/
def execEorAbs (a : Addr) (s : State) : Result :=
  .next (logical (· ^^^ ·) 4 (.mem (.abs a)) s)

/-- EOR abs,X (0x5D): R422, R328; base cycles 4. -/
def execEorAbsx (a : Addr) (s : State) : Result :=
  .next (logical (· ^^^ ·) 4 (.mem (.absx a)) s)

/-- EOR abs,Y (0x59): R422, R328; base cycles 4. -/
def execEorAbsy (a : Addr) (s : State) : Result :=
  .next (logical (· ^^^ ·) 4 (.mem (.absy a)) s)

/-- EOR (zp,X) (0x41): R422, R326; base cycles 6. -/
def execEorIndx (z : Byte) (s : State) : Result :=
  .next (logical (· ^^^ ·) 6 (.mem (.indx z)) s)

/-- EOR (zp),Y (0x51): R422, R327; base cycles 5. -/
def execEorIndy (z : Byte) (s : State) : Result :=
  .next (logical (· ^^^ ·) 5 (.mem (.indy z)) s)

/-- BIT zp (0x24): R423, R324; base cycles 3. -/
def execBitZp (z : Byte) (s : State) : Result :=
  .next (bitTest 3 (.zp z) s)

/-- BIT abs (0x2C): R423, R328; base cycles 4. -/
def execBitAbs (a : Addr) (s : State) : Result :=
  .next (bitTest 4 (.abs a) s)

end Sys2Proof.Machine
end

