-- ==== Sys2Proof/Machine/Shift.lean ====
section
/-! DEFINITION. ASL, LSR, ROL and ROR (42_shift_rotate.md): the byte and flag function of each, and the operand handling they share (R444). -/

namespace Sys2Proof.Machine

/-- ASL of a byte: the result and the new P (R440). -/
def aslByte (v p : Byte) : Byte × Byte :=
  let r := v <<< 1
  (r, setZN r (setFlag .C (v.getLsbD 7) p))

/-- LSR of a byte (R441); N is always cleared. -/
def lsrByte (v p : Byte) : Byte × Byte :=
  let r := v >>> 1
  (r, setZClearN r (setFlag .C (v.getLsbD 0) p))

/-- ROL of a byte (R442): the old C enters bit 0. -/
def rolByte (v p : Byte) : Byte × Byte :=
  let r := (v <<< 1) ||| bitAt 0 (flag .C p)
  (r, setZN r (setFlag .C (v.getLsbD 7) p))

/-- ROR of a byte (R443): the old C enters bit 7, and N is cleared although bit 7 of the result may be 1 (90_conflicts.md C1). -/
def rorByte (v p : Byte) : Byte × Byte :=
  let r := bitAt 7 (flag .C p) ||| (v >>> 1)
  (r, setZClearN r (setFlag .C (v.getLsbD 0) p))

/-- A shift or rotate (R444). -/
def shift (f : Byte → Byte → Byte × Byte) (base : Nat) (t : Target) (s : State)
    (bus : BusRead := plainRam) : State :=
  finish (tgtLength t) base (modify t f s bus)

/-- ASL A (0x0A): R440, R322; base cycles 2. -/
def execAslAcc (s : State) : Result :=
  .next (shift aslByte 2 .acc s)

/-- ASL zp (0x06): R440, R324; base cycles 5. -/
def execAslZp (z : Byte) (s : State) : Result :=
  .next (shift aslByte 5 (.mem (.zp z)) s)

/-- ASL zp,X (0x16): R440, R325; base cycles 6. -/
def execAslZpx (z : Byte) (s : State) : Result :=
  .next (shift aslByte 6 (.mem (.zpx z)) s)

/-- ASL abs (0x0E): R440, R328; base cycles 6. -/
def execAslAbs (a : Addr) (s : State) : Result :=
  .next (shift aslByte 6 (.mem (.abs a)) s)

/-- ASL abs,X (0x1E): R440, R328; base cycles 7. -/
def execAslAbsx (a : Addr) (s : State) : Result :=
  .next (shift aslByte 7 (.mem (.absx a)) s)

/-- LSR A (0x4A): R441, R322; base cycles 2. -/
def execLsrAcc (s : State) : Result :=
  .next (shift lsrByte 2 .acc s)

/-- LSR zp (0x46): R441, R324; base cycles 5. -/
def execLsrZp (z : Byte) (s : State) : Result :=
  .next (shift lsrByte 5 (.mem (.zp z)) s)

/-- LSR zp,X (0x56): R441, R325; base cycles 6. -/
def execLsrZpx (z : Byte) (s : State) : Result :=
  .next (shift lsrByte 6 (.mem (.zpx z)) s)

/-- LSR abs (0x4E): R441, R328; base cycles 6. -/
def execLsrAbs (a : Addr) (s : State) : Result :=
  .next (shift lsrByte 6 (.mem (.abs a)) s)

/-- LSR abs,X (0x5E): R441, R328; base cycles 7. -/
def execLsrAbsx (a : Addr) (s : State) : Result :=
  .next (shift lsrByte 7 (.mem (.absx a)) s)

/-- ROL A (0x2A): R442, R322; base cycles 2. -/
def execRolAcc (s : State) : Result :=
  .next (shift rolByte 2 .acc s)

/-- ROL zp (0x26): R442, R324; base cycles 5. -/
def execRolZp (z : Byte) (s : State) : Result :=
  .next (shift rolByte 5 (.mem (.zp z)) s)

/-- ROL zp,X (0x36): R442, R325; base cycles 6. -/
def execRolZpx (z : Byte) (s : State) : Result :=
  .next (shift rolByte 6 (.mem (.zpx z)) s)

/-- ROL abs (0x2E): R442, R328; base cycles 6. -/
def execRolAbs (a : Addr) (s : State) : Result :=
  .next (shift rolByte 6 (.mem (.abs a)) s)

/-- ROL abs,X (0x3E): R442, R328; base cycles 7. -/
def execRolAbsx (a : Addr) (s : State) : Result :=
  .next (shift rolByte 7 (.mem (.absx a)) s)

/-- ROR A (0x6A): R443, R322; base cycles 2. -/
def execRorAcc (s : State) : Result :=
  .next (shift rorByte 2 .acc s)

/-- ROR zp (0x66): R443, R324; base cycles 5. -/
def execRorZp (z : Byte) (s : State) : Result :=
  .next (shift rorByte 5 (.mem (.zp z)) s)

/-- ROR zp,X (0x76): R443, R325; base cycles 6. -/
def execRorZpx (z : Byte) (s : State) : Result :=
  .next (shift rorByte 6 (.mem (.zpx z)) s)

/-- ROR abs (0x6E): R443, R328; base cycles 6. -/
def execRorAbs (a : Addr) (s : State) : Result :=
  .next (shift rorByte 6 (.mem (.abs a)) s)

/-- ROR abs,X (0x7E): R443, R328; base cycles 7. -/
def execRorAbsx (a : Addr) (s : State) : Result :=
  .next (shift rorByte 7 (.mem (.absx a)) s)

end Sys2Proof.Machine
end

