-- ==== Sys2Proof/Machine/Stack.lean ====
section
/-! DEFINITION. PHA, PHP, PLA and PLP (47_stack.md). -/

namespace Sys2Proof.Machine

/-- A is pulled, and Z and N follow it (R542). -/
def pullA (s : State) (bus : BusRead := plainRam) : State :=
  let b := pull s bus
  finish 1 4 ((b.st.setA b.val).setP (setZN b.val s.p))

/-- P is pulled, all eight bits (R543). -/
def pullP (s : State) (bus : BusRead := plainRam) : State :=
  let b := pull s bus
  finish 1 4 (b.st.setP b.val)

/-- PHA (0x48): R540; base cycles 3. -/
def execPha (s : State) : Result :=
  .next (finish 1 3 (push s.a s))

/-- PHP (0x08): R541; all eight bits of P as they are; base cycles 3. -/
def execPhp (s : State) : Result :=
  .next (finish 1 3 (push s.p s))

/-- PLA (0x68): R542; base cycles 4. -/
def execPla (s : State) : Result :=
  .next (pullA s)

/-- PLP (0x28): R543; all eight bits are loaded; base cycles 4. -/
def execPlp (s : State) : Result :=
  .next (pullP s)

end Sys2Proof.Machine
end

