-- ==== Sys2Proof/Machine/Transfer.lean ====
section
/-! DEFINITION. Transfers, flag set and clear, and NOP (48_transfer_flag_nop.md): implied, 1 byte, 2 cycles. -/

namespace Sys2Proof.Machine

/-- TAX (0xAA): R560, R320; base cycles 2. -/
def execTax (s : State) : Result :=
  .next (finish 1 2 ((s.setX s.a).setP (setZN s.a s.p)))

/-- TAY (0xA8): R561, R320; base cycles 2. -/
def execTay (s : State) : Result :=
  .next (finish 1 2 ((s.setY s.a).setP (setZN s.a s.p)))

/-- TXA (0x8A): R562, R320; base cycles 2. -/
def execTxa (s : State) : Result :=
  .next (finish 1 2 ((s.setA s.x).setP (setZN s.x s.p)))

/-- TYA (0x98): R563, R320; base cycles 2. -/
def execTya (s : State) : Result :=
  .next (finish 1 2 ((s.setA s.y).setP (setZN s.y s.p)))

/-- TSX (0xBA): R564, R320; base cycles 2. -/
def execTsx (s : State) : Result :=
  .next (finish 1 2 ((s.setX s.sp).setP (setZN s.sp s.p)))

/-- TXS (0x9A): R565, R320; base cycles 2. -/
def execTxs (s : State) : Result :=
  .next (finish 1 2 (s.setSP s.x))

/-- CLC (0x18): R570, R320; base cycles 2. -/
def execClc (s : State) : Result :=
  .next (finish 1 2 (s.setP (setFlag .C false s.p)))

/-- SEC (0x38): R571, R320; base cycles 2. -/
def execSec (s : State) : Result :=
  .next (finish 1 2 (s.setP (setFlag .C true s.p)))

/-- CLD (0xD8): R572, R320; base cycles 2. -/
def execCld (s : State) : Result :=
  .next (finish 1 2 (s.setP (setFlag .D false s.p)))

/-- SED (0xF8): R573, R320; base cycles 2. -/
def execSed (s : State) : Result :=
  .next (finish 1 2 (s.setP (setFlag .D true s.p)))

/-- CLI (0x58): R574, R320; base cycles 2. -/
def execCli (s : State) : Result :=
  .next (finish 1 2 (s.setP (setFlag .I false s.p)))

/-- SEI (0x78): R575, R320; base cycles 2. -/
def execSei (s : State) : Result :=
  .next (finish 1 2 (s.setP (setFlag .I true s.p)))

/-- CLV (0xB8): R576, R320; base cycles 2. -/
def execClv (s : State) : Result :=
  .next (finish 1 2 (s.setP (setFlag .V false s.p)))

/-- NOP (0xEA): R580, R320; base cycles 2. -/
def execNop (s : State) : Result :=
  .next (finish 1 2 s)

end Sys2Proof.Machine
end

