-- ==== Sys2Proof/Machine/Fetch.lean ====
section
/-! DEFINITION. Instruction fetch (10_state.md R120; 20_memory.md R208, R217): the opcode read, the table lookup, and the reads
of the operand bytes the format has, all before any effect of the instruction. -/

namespace Sys2Proof.Machine

/-- The opcode byte at PC. -/
abbrev opcodeAt (s : State) : Byte := s.mem.read s.pc.toNat

/-- What a fetch finds: an UNDEFINED opcode, or an instruction; and the state after the reads made. -/
inductive Fetched where
  | undefined (op : Byte) (st : State)
  | instr (i : Instr) (st : State)

/-- Fetch at PC. It begins a transaction, so the access record starts empty. An UNDEFINED opcode makes the one read (R600);
operand bytes come from pc0 + 1 and pc0 + 2 modulo 65536 (R105). -/
def fetch (s : State) (bus : BusRead := plainRam) : Fetched :=
  let o := memRead s.pc (s.setBus []) bus
  match dispatch o.val with
  | none => .undefined o.val o.st
  | some row =>
    match row.form with
    | .f1 i => .instr i o.st
    | .f2 build =>
      let b := memRead (s.pc + 1#16) o.st bus
      .instr (build b.val) b.st
    | .f3 build =>
      let w := readPair (s.pc + 1#16) (s.pc + 2#16) o.st bus
      .instr (build w.val) w.st

/-- The host lays the three bytes of one row of the opcode table at PC (log 6): byte k of `w` at pc + k, where every bit of `w`
from `nbits` on is 0. -/
def placeWord (s : State) (nbits w : Nat) : State :=
  let v := w % 2 ^ nbits
  hostWrite (s.pc + 2#16) (byteOf v 2) (hostWrite (s.pc + 1#16) (byteOf v 1) (hostWrite s.pc (byteOf v 0) s))

end Sys2Proof.Machine
end

