-- ==== Sys2Proof/Machine/Step.lean ====
section
/-! DEFINITION. The `step` transaction (10_state.md R120): fetch one instruction and run it. -/

namespace Sys2Proof.Machine

/-- One step: the instruction at PC with its full effect, or the fault UnknownOpcode (R120, R121, R600). -/
def step (s : State) : Host.Outcome State Fault Refusal :=
  match fetch s with
  | .undefined op _ => .fault (.unknownOpcode op)
  | .instr i s' => exec i s'

/-- The state with one instruction stored where `step` fetches next (log 6). -/
def State.withFetchWord (s : State) (nbits w : Nat) : State := placeWord s nbits w

end Sys2Proof.Machine
end

