-- ==== Sys2Proof/Machine/Params.lean ====
section
/-! DEFINITION. The machine under its parameters (00_scope.md R10): BUS_READ and DEC_ADJ as arguments of a whole step, under any
host's `read` and any decimal adjustment (93_implementation_defined.md I1: a claim that must hold of the real block quantifies
over DEC_ADJ). INIT_REGS and INIT_MEM are the arguments of `State.initial`, and BUS_READ is one of `resetTransaction` too.
`step` is this machine under the spec's two references (logs 3 and 4). -/

namespace Sys2Proof.Machine

/-- An instruction of the read class with an operand byte (files 40, 41, 44 and 49). -/
def readingWith (adj : DecAdj) (bus : BusRead) (i : Instr) (src : Source) (s : State) : Result :=
  match i.mnemonic with
  | .ADC => .next (adcWith adj i.baseCycles src s bus)
  | .SBC => .next (sbcWith adj i.baseCycles src s bus)
  | .AND => .next (logical (· &&& ·) i.baseCycles src s bus)
  | .ORA => .next (logical (· ||| ·) i.baseCycles src s bus)
  | .EOR => .next (logical (· ^^^ ·) i.baseCycles src s bus)
  | .CMP => .next (compareReg s.a i.baseCycles src s bus)
  | .CPX => .next (compareReg s.x i.baseCycles src s bus)
  | .CPY => .next (compareReg s.y i.baseCycles src s bus)
  | .LDA => .next (loadReg State.setA i.baseCycles src s bus)
  | .LDX => .next (loadReg State.setX i.baseCycles src s bus)
  | .LDY => .next (loadReg State.setY i.baseCycles src s bus)
  | _ => exec i s

/-- An instruction with a memory operand: BIT, the stores and the read-modify-write class, else the read class (R209). -/
def memoryWith (adj : DecAdj) (bus : BusRead) (i : Instr) (m : MemMode) (s : State) : Result :=
  match i.mnemonic with
  | .BIT => .next (bitTest i.baseCycles m s bus)
  | .STA => .next (storeReg s.a i.baseCycles m s bus)
  | .STX => .next (storeReg s.x i.baseCycles m s bus)
  | .STY => .next (storeReg s.y i.baseCycles m s bus)
  | .INC => .next (stepMem 1#8 i.baseCycles m s bus)
  | .DEC => .next (stepMem (-1#8) i.baseCycles m s bus)
  | .ASL => .next (shift aslByte i.baseCycles (.mem m) s bus)
  | .LSR => .next (shift lsrByte i.baseCycles (.mem m) s bus)
  | .ROL => .next (shift rolByte i.baseCycles (.mem m) s bus)
  | .ROR => .next (shift rorByte i.baseCycles (.mem m) s bus)
  | _ => readingWith adj bus i (.mem m) s

/-- A one-byte instruction: those that read the stack or a vector; the others read nothing after their fetch (R209). -/
def impliedWith (bus : BusRead) (i : Instr) (s : State) : Result :=
  match i.mnemonic with
  | .RTS => .next (returnSub s bus)
  | .RTI => .next (charge 6 (trapReturn s bus))
  | .BRK => .next (charge 7 (trapEntry (s.pc + 2#16) s bus))
  | .PLA => .next (pullA s bus)
  | .PLP => .next (pullP s bus)
  | _ => exec i s

/-- One instruction under the decimal adjustment `adj` and the host's read `bus`. -/
def execWith (adj : DecAdj) (i : Instr) (s : State) (bus : BusRead := plainRam) : Result :=
  match i.operand with
  | .imm v => readingWith adj bus i (.imm v) s
  | .mem m => memoryWith adj bus i m s
  | .ind ptr => .next (jumpIndirect ptr s bus)
  | .imp => impliedWith bus i s
  | .acc | .rel _ | .jump _ => exec i s

/-- One step under the decimal adjustment `adj` and the host's read `bus` (R120). -/
def stepWith (adj : DecAdj) (s : State) (bus : BusRead := plainRam) : Result :=
  match fetch s bus with
  | .undefined op _ => .fault (.unknownOpcode op)
  | .instr i s' => execWith adj i s' bus

end Sys2Proof.Machine
end

