-- ==== Sys2Proof/Safety.lean ====
section
/-! DEFINITION. The terms claims use: the invariant of the machine, a run without a fault, the spec's convention for the end of a
run, and the spec's own tables of what each instruction may write, read and cost, written from their rules apart from the
meanings. -/

namespace Sys2Proof.Machine

/-- The invariant of the machine: memory is in its canonical form. Every register is in range by its type (R101). -/
def State.Inv (s : State) : Prop := s.mem.wf = true

/-- `n` steps from `s` meet no fault: no UNDEFINED opcode is fetched (R600). -/
def runsSafely (n : Nat) (s : State) : Bool :=
  match Host.Core.run Sys2Proof.core n s with
  | .next _ => true
  | .fault _ => false
  | .refused _ => false

/-- The end of a run (R722): the instruction at PC is a `JMP` absolute to its own address. It is the spec's convention for its
programs, not a state of the block, which goes on looping (log 19). -/
def halted (s : State) : Bool :=
  match fetch s with
  | .instr (.jmpAbs a) _ => a == s.pc
  | _ => false

/-- At most `fuel` steps, ending before the first halted state's instruction runs, or at a fault (R722, R601). -/
def runToHalt : Nat → State → Result
  | 0, s => .next s
  | n + 1, s =>
    if halted s then .next s
    else
      match step s with
      | .next t => runToHalt n t
      | .fault f => .fault f
      | .refused r => .refused r

/-- One instruction run `n` times, wherever PC points. -/
def execTimes : Nat → Instr → State → Result
  | 0, _, s => .next s
  | n + 1, i, s =>
    match exec i s with
    | .next t => execTimes n i t
    | .fault f => .fault f
    | .refused r => .refused r

/-- The 105 UNDEFINED opcode values, as R313 lists them. -/
def undefinedOpcodes : List Byte :=
  [0x02#8, 0x03#8, 0x04#8, 0x07#8, 0x0B#8, 0x0C#8, 0x0F#8, 0x12#8, 0x13#8, 0x14#8, 0x17#8, 0x1A#8, 0x1B#8, 0x1C#8, 0x1F#8] ++
  [0x22#8, 0x23#8, 0x27#8, 0x2B#8, 0x2F#8, 0x32#8, 0x33#8, 0x34#8, 0x37#8, 0x3A#8, 0x3B#8, 0x3C#8, 0x3F#8, 0x42#8, 0x43#8] ++
  [0x44#8, 0x47#8, 0x4B#8, 0x4F#8, 0x52#8, 0x53#8, 0x54#8, 0x57#8, 0x5A#8, 0x5B#8, 0x5C#8, 0x5F#8, 0x62#8, 0x63#8, 0x64#8] ++
  [0x67#8, 0x6B#8, 0x6F#8, 0x72#8, 0x73#8, 0x74#8, 0x77#8, 0x7A#8, 0x7B#8, 0x7C#8, 0x7F#8, 0x80#8, 0x82#8, 0x83#8, 0x87#8] ++
  [0x89#8, 0x8B#8, 0x8F#8, 0x92#8, 0x93#8, 0x97#8, 0x9B#8, 0x9C#8, 0x9E#8, 0x9F#8, 0xA3#8, 0xA7#8, 0xAB#8, 0xAF#8, 0xB2#8] ++
  [0xB3#8, 0xB7#8, 0xBB#8, 0xBF#8, 0xC2#8, 0xC3#8, 0xC7#8, 0xCB#8, 0xCF#8, 0xD2#8, 0xD3#8, 0xD4#8, 0xD7#8, 0xDA#8, 0xDB#8] ++
  [0xDC#8, 0xDF#8, 0xE2#8, 0xE3#8, 0xE7#8, 0xEB#8, 0xEF#8, 0xF2#8, 0xF3#8, 0xF4#8, 0xF7#8, 0xFA#8, 0xFB#8, 0xFC#8, 0xFF#8]

/-- The three bytes from PC on, as far as an instruction can reach (R105: addresses wrap modulo 65536). -/
def bytesAtPC (s : State) : List Byte :=
  [s.mem.read s.pc.toNat, s.mem.read (s.pc + 1#16).toNat, s.mem.read (s.pc + 2#16).toNat]

/-- The reads the fetch of an `n`-byte instruction makes, in order (R208 items 1 and 2). -/
def fetchReads (s : State) (n : Nat) : List Access :=
  [Access.read s.pc, .read (s.pc + 1#16), .read (s.pc + 2#16)].take n

/-- The 8-bit registers other than P (R100). -/
inductive Reg where
  | A | X | Y | SP
  deriving DecidableEq, Repr

/-- The value of a register. -/
def reg : Reg → State → Byte
  | .A, s => s.a
  | .X, s => s.x
  | .Y, s => s.y
  | .SP, s => s.sp

/-- Every register but those listed is unchanged. -/
def SameRegs (except : List Reg) (s t : State) : Prop := ∀ r, r ∉ except → reg r t = reg r s

/-- Every flag but those listed is unchanged. -/
def SameFlags (except : List Flag) (s t : State) : Prop := ∀ f, f ∉ except → flag f t.p = flag f s.p

/-- Z and N follow the byte `v` (R110). -/
def ZNFollow (v : Byte) (t : State) : Prop := flag .Z t.p = decide (v = 0#8) ∧ flag .N t.p = v.getLsbD 7

/-- An instruction that does not transfer control ends: PC is past it (R123), and its base cost and `extra` are charged (R124). -/
def Ends (i : Instr) (extra : Nat) (s t : State) : Prop :=
  t.pc = s.pc + BitVec.ofNat 16 i.length ∧ t.cycles = s.cycles + BitVec.ofNat 64 (i.baseCycles + extra)

/-- The "Flags written" line of each instruction's rule (files 40 to 49; the "written by" column of R106). -/
def flagsWritten : Mnemonic → List Flag
  | .ADC | .SBC => [.C, .Z, .V, .N]
  | .AND | .ORA | .EOR | .INC | .DEC | .INX | .INY | .DEX | .DEY | .PLA | .TAX | .TAY | .TXA | .TYA | .TSX | .LDA | .LDX | .LDY => [.Z, .N]
  | .BIT => [.Z, .V, .N]
  | .ASL | .LSR | .ROL | .ROR | .CMP | .CPX | .CPY => [.C, .Z, .N]
  | .BCC | .BCS | .BEQ | .BNE | .BMI | .BPL | .BVC | .BVS | .JMP | .JSR | .RTS | .PHA | .PHP | .TXS | .NOP | .STA | .STX | .STY => []
  | .BRK => [.I, .B]
  | .RTI | .PLP => [.C, .Z, .I, .D, .B, .U, .V, .N]
  | .CLC | .SEC => [.C]
  | .CLD | .SED => [.D]
  | .CLI | .SEI => [.I]
  | .CLV => [.V]

/-- The "read by" column of R106: whose effect may depend on a flag. -/
def flagReaders : Flag → List Mnemonic
  | .C => [.ADC, .SBC, .ROL, .ROR, .BCC, .BCS, .PHP, .BRK]
  | .Z => [.BEQ, .BNE, .PHP, .BRK]
  | .I => [.PHP, .BRK]
  | .D => [.ADC, .SBC, .PHP, .BRK]
  | .B => [.PHP, .BRK]
  | .U => [.PHP, .BRK]
  | .V => [.BVC, .BVS, .PHP, .BRK]
  | .N => [.BMI, .BPL, .PHP, .BRK]

/-- The registers an instruction may write (R102, R103, R104). A shift or rotate writes A in accumulator mode only (R444). -/
def regsWritten (i : Instr) : List Reg :=
  match i.mnemonic with
  | .ADC | .SBC | .AND | .ORA | .EOR | .TXA | .TYA | .LDA => [.A]
  | .ASL | .LSR | .ROL | .ROR => if i.mode = .acc then [.A] else []
  | .PLA => [.A, .SP]
  | .INX | .DEX | .TAX | .TSX | .LDX => [.X]
  | .INY | .DEY | .TAY | .LDY => [.Y]
  | .TXS | .JSR | .RTS | .BRK | .RTI | .PHA | .PHP | .PLP => [.SP]
  | .BIT | .INC | .DEC | .CMP | .CPX | .CPY | .BCC | .BCS | .BEQ | .BNE | .BMI | .BPL | .BVC | .BVS | .JMP
  | .CLC | .SEC | .CLD | .SED | .CLI | .SEI | .CLV | .NOP | .STA | .STX | .STY => []

/-- The instructions that write the byte at EA (R209: the store and read-modify-write rows). -/
def writesEA : Mnemonic → Bool
  | .STA | .STX | .STY | .ASL | .LSR | .ROL | .ROR | .INC | .DEC => true
  | _ => false

/-- The instructions that read the byte at EA (R209: every memory operand but a store's). -/
def readsEA : Mnemonic → Bool
  | .STA | .STX | .STY => false
  | _ => true

/-- The stack addresses a one-byte instruction stores to (R209; R526, R540, R541). -/
def stackStores (m : Mnemonic) (s : State) : List Addr :=
  match m with
  | .PHA | .PHP => [stackAddr s.sp]
  | .BRK => [stackAddr s.sp, stackAddr (s.sp - 1#8), stackAddr (s.sp - 2#8)]
  | _ => []

/-- Every address an instruction stores to (R209): EA for a store or read-modify-write, the stack bytes for a push, none for
any other form. -/
def storedTo (i : Instr) (s : State) : List Addr :=
  match i.operand with
  | .mem m => if writesEA i.mnemonic then [(resolve m s).ea] else []
  | .jump _ => if i.mnemonic = .JSR then [stackAddr s.sp, stackAddr (s.sp - 1#8)] else []
  | .imp => stackStores i.mnemonic s
  | .acc | .imm _ | .rel _ | .ind _ => []

/-- The condition each branch tests (R501 to R508). -/
def branchCond : Mnemonic → Byte → Bool
  | .BCC, p => flag .C p == false
  | .BCS, p => flag .C p == true
  | .BEQ, p => flag .Z p == true
  | .BNE, p => flag .Z p == false
  | .BMI, p => flag .N p == true
  | .BPL, p => flag .N p == false
  | .BVC, p => flag .V p == false
  | .BVS, p => flag .V p == true
  | _, _ => false

/-- The cycles an instruction costs beyond its base (R124, R312, R500): 1 for a page crossing of a read-class form; for a branch
0, 1 or 2. -/
def surcharge (i : Instr) (s : State) : Nat :=
  match i.pageCross, i.operand with
  | .read, .mem m => if (resolve m s).crossed then 1 else 0
  | .branch, .rel off =>
    if branchCond i.mnemonic s.p then
      if crossed (s.pc + 2#16) (s.pc + 2#16 + sext16 off) then 2 else 1
    else 0
  | _, _ => 0

/-- An access without the byte it moves: `inl` a read, `inr` a write. -/
def Access.shape : Access → Addr ⊕ Addr
  | .read a => .inl a
  | .write a _ => .inr a

/-- The stack and vector accesses of a one-byte instruction, in order (R208 items 5 and 6). -/
def stackAccesses (m : Mnemonic) (s : State) : List (Addr ⊕ Addr) :=
  match m with
  | .PHA | .PHP => [.inr (stackAddr s.sp)]
  | .PLA | .PLP => [.inl (stackAddr (s.sp + 1#8))]
  | .RTS => [.inl (stackAddr (s.sp + 1#8)), .inl (stackAddr (s.sp + 2#8))]
  | .RTI => [.inl (stackAddr (s.sp + 1#8)), .inl (stackAddr (s.sp + 2#8)), .inl (stackAddr (s.sp + 3#8))]
  | .BRK => [.inr (stackAddr s.sp), .inr (stackAddr (s.sp - 1#8)), .inr (stackAddr (s.sp - 2#8)),
      .inl Config.brkVector, .inl (Config.brkVector + 1#16)]
  | _ => []

/-- The accesses an instruction makes after its fetch, in order (R208 items 3 to 6, R209). -/
def expectedAccesses (i : Instr) (s : State) : List (Addr ⊕ Addr) :=
  match i.operand with
  | .mem m =>
    (pointerReads m s).map Access.shape ++
      (if readsEA i.mnemonic then [.inl (resolve m s).ea] else []) ++
      (if writesEA i.mnemonic then [.inr (resolve m s).ea] else [])
  | .ind a => [.inl a, .inl ((a &&& 0xFF00#16) ||| ((a + 1#16) &&& 0x00FF#16))]
  | .jump _ => if i.mnemonic = .JSR then [.inr (stackAddr s.sp), .inr (stackAddr (s.sp - 1#8))] else []
  | .acc | .imm _ | .rel _ => []
  | .imp => stackAccesses i.mnemonic s

end Sys2Proof.Machine
end

