-- ==== Sys2Proof/Certificates/Slice0/Obligations.lean ====
section
/-! DEFINITION. The statements for the provers. Vocabulary: Sys2Proof/Safety.lean. A clause on `cycles` beyond NOP and the
branches rests on the base costs, and a clause on opcode bytes on the opcode map, both the spec's general knowledge (log 7); a
clause on `bus` is about the model's own access record and rests on the spec's decision D12 (logs 5 and 8); a 16-bit wrap of an
effective address rests on D3 (log 9). -/

open Sys2Proof Sys2Proof.Machine

/-! ## Encoding and decoding -/

/-- Words written out from the encodings of files 40 to 49, at least one of each family, decode to the instruction they stand
for; an UNDEFINED opcode, a missing operand byte and no byte at all are rejected by name. -/
def Obligations.WordsOfEveryFamilyDecode : Prop :=
  decode [0x69#8, 0x50#8] = .ok (.adcImm 0x50#8, []) ∧
  decode [0xF1#8, 0x20#8, 0xEA#8] = .ok (.sbcIndy 0x20#8, [0xEA#8]) ∧
  decode [0x2C#8, 0x34#8, 0x12#8] = .ok (.bitAbs 0x1234#16, []) ∧
  decode [0x6A#8, 0x00#8] = .ok (.rorAcc, [0x00#8]) ∧
  decode [0xFE#8, 0xFF#8, 0x12#8] = .ok (.incAbsx 0x12FF#16, []) ∧
  decode [0xCA#8] = .ok (.dex, []) ∧
  decode [0xC1#8, 0x40#8] = .ok (.cmpIndx 0x40#8, []) ∧
  decode [0xD0#8, 0xFA#8] = .ok (.bne 0xFA#8, []) ∧
  decode [0x6C#8, 0xFF#8, 0x30#8] = .ok (.jmpInd 0x30FF#16, []) ∧
  decode [0x20#8, 0x10#8, 0x03#8] = .ok (.jsr 0x0310#16, []) ∧
  decode [0x00#8] = .ok (.brk, []) ∧
  decode [0x28#8] = .ok (.plp, []) ∧
  decode [0x9A#8] = .ok (.txs, []) ∧
  decode [0xB6#8, 0xF0#8] = .ok (.ldxZpy 0xF0#8, []) ∧
  decode [0x99#8, 0x00#8, 0x02#8] = .ok (.staAbsy 0x0200#16, []) ∧
  decode [0x02#8, 0xEA#8] = .error (.unknownOpcode 0x02#8) ∧
  decode [0x4C#8, 0x00#8] = .error (.truncated 0x4C#8) ∧
  decode [] = .error .empty

/-- Decoding the encoding of ANY instruction, with every operand value, gives that instruction and the bytes after it. -/
def Obligations.DecodeOfEncodeIsTheInstruction : Prop :=
  ∀ (i : Instr) (rest : List Byte), decode (encode i ++ rest) = .ok (i, rest)

/-- Conversely, bytes that decode to an instruction begin with that instruction's own encoding: each word has one meaning. -/
def Obligations.DecodedBytesAreTheEncoding : Prop :=
  ∀ (bs rest : List Byte) (i : Instr), decode bs = .ok (i, rest) → bs = encode i ++ rest

/-- The UNDEFINED opcode values are exactly the 105 that R313 lists, each once, and the decoder rejects each of them by its
byte whatever follows it. -/
def Obligations.UndefinedOpcodesAreTheListed105 : Prop :=
  undefinedOpcodes.length = 105 ∧ undefinedOpcodes.Nodup ∧
  ∀ (op : Byte) (rest : List Byte),
    (op ∈ undefinedOpcodes ↔ dispatch op = none) ∧
    (op ∈ undefinedOpcodes ↔ decode (op :: rest) = .error (.unknownOpcode op))

/-- Every row of the opcode map builds an instruction of the row's own mnemonic and addressing mode, whose encoding begins with
the row's opcode byte and has the row's length, and which the mnemonic's own rule admits. -/
def Obligations.OpcodeRowsBuildTheirInstruction : Prop :=
  ∀ row ∈ dispatchTable, ∀ (i : Instr),
    (match row.form with
      | .f1 j => i = j
      | .f2 build => ∃ b, i = build b
      | .f3 build => ∃ a, i = build a) →
    i.mnemonic = row.mnemonic ∧ i.mode = row.mode ∧ i.wf = true ∧
    (encode i).length = row.length ∧ (encode i).head? = some row.opcode ∧
    i.baseCycles = row.cycles ∧ i.pageCross = row.pageCross

/-- What an assembler writes (R340) decodes to the instruction written: its mnemonic, its mode and, mode by mode, its operand; for
a branch the offset reaches the target written. A zero-page address is written in the zero-page form where the mnemonic has one,
otherwise in the absolute form. -/
def Obligations.AssembledLineIsTheInstructionWritten : Prop :=
  (∀ (l : Line), l.wf = true →
    ∃ i, l.instr = some i ∧ i.mnemonic = l.mnemonic ∧ i.mode = l.mode ∧
      l.assemble = some (encode i) ∧ decode (encode i) = .ok (i, []) ∧
      (match l.mode with
        | .imp => i.operand = .imp
        | .acc => i.operand = .acc
        | .imm => i.operand = .imm (BitVec.ofNat 8 l.operand)
        | .zp => i.operand = .mem (.zp (BitVec.ofNat 8 l.operand))
        | .zpx => i.operand = .mem (.zpx (BitVec.ofNat 8 l.operand))
        | .zpy => i.operand = .mem (.zpy (BitVec.ofNat 8 l.operand))
        | .abs => i.operand = (if l.mnemonic = .JMP ∨ l.mnemonic = .JSR then .jump (BitVec.ofNat 16 l.operand)
            else .mem (.abs (BitVec.ofNat 16 l.operand)))
        | .absx => i.operand = .mem (.absx (BitVec.ofNat 16 l.operand))
        | .absy => i.operand = .mem (.absy (BitVec.ofNat 16 l.operand))
        | .ind => i.operand = .ind (BitVec.ofNat 16 l.operand)
        | .indx => i.operand = .mem (.indx (BitVec.ofNat 8 l.operand))
        | .indy => i.operand = .mem (.indy (BitVec.ofNat 8 l.operand))
        | .rel => ∃ off, i.operand = .rel off ∧ BitVec.ofNat 16 (l.at0 + 2) + sext16 off = BitVec.ofNat 16 l.operand)) ∧
  ∀ (l : Line), l.wf = true →
    l.shrink.wf = true ∧ l.shrink.mnemonic = l.mnemonic ∧ l.shrink.operand = l.operand ∧ l.shrink.at0 = l.at0 ∧
    l.shrink.mode =
      (match l.mode with
        | .abs => if l.operand < 256 ∧ Mode.zp ∈ l.mnemonic.modes then .zp else .abs
        | .absx => if l.operand < 256 ∧ Mode.zpx ∈ l.mnemonic.modes then .zpx else .absx
        | .absy => if l.operand < 256 ∧ Mode.zpy ∈ l.mnemonic.modes then .zpy else .absy
        | m => m)

/-! ## The step -/

/-- Where the bytes at PC decode to an instruction, a step is `exec` of it on the same state, with the fetch's reads (opcode,
then the operand bytes of its length, modulo 65536) as the access record so far. PC still names the opcode: the instruction's
own rule moves it. -/
def Obligations.StepRunsTheDecodedInstruction : Prop :=
  ∀ (s : State) (i : Instr) (rest : List Byte), decode (bytesAtPC s) = .ok (i, rest) →
    step s = exec i (s.setBus (fetchReads s i.length))

/-- A step has exactly two outcomes (R121): a next state, or UnknownOpcode carrying the opcode byte, found by a fetch that left
every register, P, cycles and memory exactly as before the step. -/
def Obligations.StepSucceedsOrIsUnknownOpcode : Prop :=
  ∀ (s : State),
    (∃ t, step s = .next t) ∨
    (step s = .fault (.unknownOpcode (opcodeAt s)) ∧
      ∃ u, fetch s = .undefined (opcodeAt s) u ∧ u.a = s.a ∧ u.x = s.x ∧ u.y = s.y ∧ u.sp = s.sp ∧ u.pc = s.pc ∧
        u.p = s.p ∧ u.cycles = s.cycles ∧ u.mem = s.mem)

/-- UnknownOpcode is raised exactly when the byte at PC is one of the 105, carries that byte, and the opcode read is the only
access made (the last clause is the spec's decision D27, log 15). -/
def Obligations.UnknownOpcodeExactlyAtUndefinedBytes : Prop :=
  ∀ (s : State) (op : Byte),
    (step s = .fault (.unknownOpcode op) ↔ op = opcodeAt s ∧ op ∈ undefinedOpcodes) ∧
    (opcodeAt s ∈ undefinedOpcodes → fetch s = .undefined (opcodeAt s) (s.setBus [.read s.pc]))

/-- No instruction fails: `exec` of every constructor answers a next state in every state (R602: UnknownOpcode, which is raised
before any instruction is chosen, is the only exception). -/
def Obligations.EveryInstructionCompletes : Prop :=
  ∀ (i : Instr) (s : State), ∃ t, exec i s = .next t

/-- `withFetchWord` (log 6: the host's loading of a program) makes the very next step run the row's instruction, and changes no
register of the register file (R100), `cycles` included. -/
def Obligations.PlacedWordIsTheNextInstruction : Prop :=
  ∀ (s : State) (nbits w : Nat) (i : Instr), s.Inv → decodeTableWord nbits w = some i →
    step (s.withFetchWord nbits w) =
      exec i ((s.withFetchWord nbits w).setBus (fetchReads s i.length)) ∧
    (s.withFetchWord nbits w).pc = s.pc ∧ (s.withFetchWord nbits w).p = s.p ∧ SameRegs [] s (s.withFetchWord nbits w) ∧
    (s.withFetchWord nbits w).cycles = s.cycles

/-! ## The invariant -/

/-- Every step keeps the invariant: memory stays in its canonical form. -/
def Obligations.StepKeepsTheInvariant : Prop :=
  ∀ (s t : State), s.Inv → step s = .next t → t.Inv

/-- The state after reset has the invariant. -/
def Obligations.ResetHasTheInvariant : Prop := State.reset.Inv

/-- Between two steps the invariant is kept too: by the `reset` transaction and by a host write of any byte. -/
def Obligations.ResetAndHostWriteKeepTheInvariant : Prop :=
  ∀ (s : State) (a : Addr) (v : Byte), s.Inv → (resetTransaction s).Inv ∧ (hostWrite a v s).Inv

/-! ## The flag logic unit -/

/-- SetZN(v) (R110): Z is (v == 0), N is bit 7 of v, and no other bit of P changes. -/
def Obligations.SetZNWritesZeroAndNegative : Prop :=
  ∀ (v p : Byte),
    (flag .Z (setZN v p) = true ↔ v = 0#8) ∧ flag .N (setZN v p) = v.getLsbD 7 ∧
    ∀ f, f ≠ .Z → f ≠ .N → flag f (setZN v p) = flag f p

/-- AddBinary(a, b, cin) (R111): the exact sum s = a + b + cin is r + 256 c, and v is set exactly when a and b share a sign and
r's sign differs. -/
def Obligations.AddBinaryIsExact : Prop :=
  ∀ (a b : Byte) (cin : Bool),
    (addBinary a b cin).r.toNat + 256 * (addBinary a b cin).c.toNat = a.toNat + b.toNat + cin.toNat ∧
    ((addBinary a b cin).v = true ↔ a.msb = b.msb ∧ (addBinary a b cin).r.msb ≠ a.msb)

/-- CompareFlags(reg, m) (R112): C is reg ≥ m unsigned, Z and N are those of (reg - m) mod 256, and no other bit of P changes. -/
def Obligations.CompareFlagsAreOfTheDifference : Prop :=
  ∀ (reg m p : Byte),
    (flag .C (compareFlags reg m p) = true ↔ m.toNat ≤ reg.toNat) ∧
    (flag .Z (compareFlags reg m p) = true ↔ reg - m = 0#8) ∧
    flag .N (compareFlags reg m p) = (reg - m).getLsbD 7 ∧
    ∀ f, f ≠ .C → f ≠ .Z → f ≠ .N → flag f (compareFlags reg m p) = flag f p

/-- SetZ_ClearN(v) (R113): Z is (v == 0), N is 0, no other bit of P changes; LSR and ROR use it, so they always clear N, in every
form, and Z follows the byte they write. -/
def Obligations.RightShiftsClearNegative : Prop :=
  (∀ (v p : Byte),
    (flag .Z (setZClearN v p) = true ↔ v = 0#8) ∧ flag .N (setZClearN v p) = false ∧
    ∀ f, f ≠ .Z → f ≠ .N → flag f (setZClearN v p) = flag f p) ∧
  ∀ (i : Instr) (s : State), i.mnemonic = .LSR ∨ i.mnemonic = .ROR →
    ∃ t, exec i s = .next t ∧ flag .N t.p = false ∧
      (i.mode = .acc → (flag .Z t.p = true ↔ t.a = 0#8)) ∧
      ∀ m, i.operand = .mem m → s.Inv → (flag .Z t.p = true ↔ t.mem.read (resolve m s).ea.toNat = 0#8)

/-- Flags not defined to be affected by an instruction are bit-for-bit unchanged after `step` (R114); where its rule lists no
flag, all of P is unchanged. -/
def Obligations.UnlistedFlagsAreUnchanged : Prop :=
  ∀ (s t : State) (i : Instr) (u : State), fetch s = .instr i u → step s = .next t →
    SameFlags (flagsWritten i.mnemonic) s t ∧ (flagsWritten i.mnemonic = [] → t.p = s.p)

/-! ## Addressing modes -/

/-- Zero page (R324): EA is the operand byte, in page 0. (zp,X) (R326): the pointer is read at (b1 + X) mod 256 and its
successor, which wraps mod 256 too, low byte first, as a little-endian EA. Both are 2 bytes long and report no crossing. -/
def Obligations.ZeroPageAndIndexedIndirectAddresses : Prop :=
  ∀ (z : Byte) (s : State),
    ((resolve (.zp z) s).ea.toNat = z.toNat ∧ (resolve (.zp z) s).ea.toNat < 256 ∧ (resolve (.zp z) s).crossed = false ∧
      MemMode.mode (.zp z) = .zp ∧ Mode.zp.length = 2) ∧
    ((resolve (.indx z) s).ea.toNat =
        256 * (s.mem.read ((z.toNat + s.x.toNat + 1) % 256)).toNat + (s.mem.read ((z.toNat + s.x.toNat) % 256)).toNat ∧
      (resolve (.indx z) s).st = s.setBus (s.bus ++
        [.read (BitVec.ofNat 16 ((z.toNat + s.x.toNat) % 256)), .read (BitVec.ofNat 16 ((z.toNat + s.x.toNat + 1) % 256))]) ∧
      (resolve (.indx z) s).crossed = false ∧ MemMode.mode (.indx z) = .indx ∧ Mode.indx.length = 2)

/-- The other modes (R321, R325, R327, R328): zp,X and zp,Y stay in page 0; abs, abs,X and abs,Y add the index modulo 65536; (zp),Y
adds Y to the pointer at the operand and its successor within page 0 (the wrap there is decision D4, log 9); an indexed mode
reports a crossing exactly when the page of base and of EA differ. -/
def Obligations.IndexedAddressesAndPageCrossing : Prop :=
  ∀ (z : Byte) (a : Addr) (s : State),
    (resolve (.zpx z) s).ea.toNat = (z.toNat + s.x.toNat) % 256 ∧ (resolve (.zpx z) s).crossed = false ∧
    (resolve (.zpy z) s).ea.toNat = (z.toNat + s.y.toNat) % 256 ∧ (resolve (.zpy z) s).crossed = false ∧
    (resolve (.abs a) s).ea = a ∧ (resolve (.abs a) s).crossed = false ∧
    (resolve (.absx a) s).ea.toNat = (a.toNat + s.x.toNat) % 65536 ∧
    ((resolve (.absx a) s).crossed = true ↔ a.toNat / 256 ≠ (a.toNat + s.x.toNat) % 65536 / 256) ∧
    (resolve (.absy a) s).ea.toNat = (a.toNat + s.y.toNat) % 65536 ∧
    ((resolve (.absy a) s).crossed = true ↔ a.toNat / 256 ≠ (a.toNat + s.y.toNat) % 65536 / 256) ∧
    (let base := 256 * (s.mem.read ((z.toNat + 1) % 256)).toNat + (s.mem.read z.toNat).toNat
     (resolve (.indy z) s).ea.toNat = (base + s.y.toNat) % 65536 ∧
     ((resolve (.indy z) s).crossed = true ↔ base / 256 ≠ (base + s.y.toNat) % 65536 / 256))

/-! ## Arithmetic, logic, shifts, compares -/

/-- ADC of every form with D clear (R400): A and C are the exact sum A + m + C, V is signed overflow, Z and N follow A; the frame
and the end. -/
def Obligations.AdcAddsWithCarry : Prop :=
  ∀ (i : Instr) (src : Source) (s : State), i.mnemonic = .ADC → i.operand = src.operand → flag .D s.p = false →
    ∃ t, exec i s = .next t ∧
      t.a.toNat + 256 * (flag .C t.p).toNat = s.a.toNat + (load src s).val.toNat + (flag .C s.p).toNat ∧
      (let sum := s.a.toInt + (load src s).val.toInt + ((flag .C s.p).toNat : Int)
       flag .V t.p = true ↔ sum < -128 ∨ 127 < sum) ∧
      ZNFollow t.a t ∧ SameFlags [.C, .Z, .V, .N] s t ∧ SameRegs [.A] s t ∧ t.mem = s.mem ∧
      Ends i (load src s).extra s t ∧ t.bus = s.bus ++ loadReads src s

/-- SBC of every form with D clear (R401; its reading of C and of V is decision D5, log 10): A is A - m - (1 - C) modulo 256,
C is no borrow, V is signed overflow, Z and N follow A; the frame and the end. -/
def Obligations.SbcSubtractsWithBorrow : Prop :=
  ∀ (i : Instr) (src : Source) (s : State), i.mnemonic = .SBC → i.operand = src.operand → flag .D s.p = false →
    ∃ t, exec i s = .next t ∧
      (let borrow := 1 - (flag .C s.p).toNat
       (t.a.toNat : Int) = ((s.a.toNat : Int) - (load src s).val.toNat - borrow) % 256 ∧
       (flag .C t.p = true ↔ (load src s).val.toNat + borrow ≤ s.a.toNat) ∧
       (let diff := s.a.toInt - (load src s).val.toInt - (borrow : Int)
        flag .V t.p = true ↔ diff < -128 ∨ 127 < diff)) ∧
      ZNFollow t.a t ∧ SameFlags [.C, .Z, .V, .N] s t ∧ SameRegs [.A] s t ∧ t.mem = s.mem ∧
      Ends i (load src s).extra s t ∧ t.bus = s.bus ++ loadReads src s

/-- Decimal mode (R403), for EVERY DEC_ADJ: with D set, ADC and SBC take A, C and V from the adjustment and Z and N from its
result, with the frame, end and reads of the binary forms; D clear, the adjustment does not matter. `exec` is ADC and SBC under the spec's reference adjustment (log 4). -/
def Obligations.DecimalModeGoesThroughDecAdj : Prop :=
  (∀ (adj adj' : DecAdj) (base : Nat) (src : Source) (s : State),
    (flag .D s.p = true →
      (let o := adj .add s.a (load src s).val (flag .C s.p)
       let t := adcWith adj base src s
       t.a = o.r ∧ flag .C t.p = o.c ∧ flag .V t.p = o.v ∧ ZNFollow o.r t ∧ SameFlags [.C, .Z, .V, .N] s t ∧
        SameRegs [.A] s t ∧ t.mem = s.mem ∧ t.pc = s.pc + BitVec.ofNat 16 (srcLength src) ∧
        t.cycles = s.cycles + BitVec.ofNat 64 (base + (load src s).extra) ∧ t.bus = s.bus ++ loadReads src s) ∧
      (let o := adj .sub s.a (load src s).val (flag .C s.p)
       let t := sbcWith adj base src s
       t.a = o.r ∧ flag .C t.p = o.c ∧ flag .V t.p = o.v ∧ ZNFollow o.r t ∧ SameFlags [.C, .Z, .V, .N] s t ∧
        SameRegs [.A] s t ∧ t.mem = s.mem ∧ t.pc = s.pc + BitVec.ofNat 16 (srcLength src) ∧
        t.cycles = s.cycles + BitVec.ofNat 64 (base + (load src s).extra) ∧ t.bus = s.bus ++ loadReads src s)) ∧
    (flag .D s.p = false → adcWith adj base src s = adcWith adj' base src s ∧ sbcWith adj base src s = sbcWith adj' base src s)) ∧
  ∀ (i : Instr) (src : Source) (s : State), i.operand = src.operand →
    (i.mnemonic = .ADC → exec i s = .next (adcWith decAdjReference i.baseCycles src s)) ∧
    (i.mnemonic = .SBC → exec i s = .next (sbcWith decAdjReference i.baseCycles src s))

/-- DEC_ADJ is a parameter of the whole machine (R10, R403, log 4): under the reference (and BUS_READ plain RAM, log 3) it is
`step`; under any other it differs from `step` at most where D is set and the instruction fetched is ADC or SBC, so not where the
fetch finds an UNDEFINED opcode either. -/
def Obligations.DecAdjReachesDecimalAdcAndSbcAlone : Prop :=
  (∀ (s : State), stepWith decAdjReference s plainRam = step s) ∧
  ∀ (adj : DecAdj) (s : State),
    (flag .D s.p = false → stepWith adj s plainRam = step s) ∧
    ((∀ (i : Instr) (u : State), fetch s = .instr i u → i.mnemonic ≠ .ADC ∧ i.mnemonic ≠ .SBC) →
      stepWith adj s plainRam = step s)

/-- The spec's reference DEC_ADJ (R403, decision D6, log 4): C and V are the binary operation's; the result is the binary one
with 6 added, or taken away, exactly where its low nibble exceeds 9. -/
def Obligations.ReferenceDecAdjCorrectsTheLowNibble : Prop :=
  ∀ (a m : Byte) (cin : Bool),
    (let sum := a.toNat + m.toNat + cin.toNat
     let o := decAdjReference .add a m cin
     o.r.toNat = (if 9 < sum % 16 then sum + 6 else sum) % 256 ∧ o.c = decide (256 ≤ sum) ∧ o.v = (addBinary a m cin).v) ∧
    (let diff := 256 + a.toNat - m.toNat - (1 - cin.toNat)
     let o := decAdjReference .sub a m cin
     o.r.toNat = (if 9 < diff % 16 then diff - 6 else diff) % 256 ∧ o.c = decide (256 ≤ diff) ∧
      o.v = (addBinary a (~~~ m) cin).v)

/-- AND, ORA and EOR of every form (R420, R421, R422): A bit by bit, Z and N follow it, C and V untouched; the frame and the
end. -/
def Obligations.LogicalOperationsCombineBits : Prop :=
  ∀ (i : Instr) (src : Source) (s : State), i.operand = src.operand →
    i.mnemonic = .AND ∨ i.mnemonic = .ORA ∨ i.mnemonic = .EOR →
    ∃ t, exec i s = .next t ∧
      (∀ k, k < 8 → t.a.getLsbD k =
        (let x := s.a.getLsbD k
         let y := (load src s).val.getLsbD k
         if i.mnemonic = .AND then x && y else if i.mnemonic = .ORA then x || y else x != y)) ∧
      ZNFollow t.a t ∧ SameFlags [.Z, .N] s t ∧ SameRegs [.A] s t ∧ t.mem = s.mem ∧
      Ends i (load src s).extra s t ∧ t.bus = s.bus ++ loadReads src s

/-- BIT of both forms (R423, the spec's general knowledge, log 12): Z from A and the byte at EA, N and V its bits 7 and 6; nothing
else changes. -/
def Obligations.BitTestsMemoryAgainstA : Prop :=
  ∀ (i : Instr) (m : MemMode) (s : State), i.mnemonic = .BIT → i.operand = .mem m →
    ∃ t, exec i s = .next t ∧
      (let b := s.mem.read (resolve m s).ea.toNat
       (flag .Z t.p = true ↔ s.a &&& b = 0#8) ∧ flag .N t.p = b.getLsbD 7 ∧ flag .V t.p = b.getLsbD 6) ∧
      SameFlags [.Z, .V, .N] s t ∧ SameRegs [] s t ∧ t.mem = s.mem ∧ Ends i 0 s t ∧
      t.bus = s.bus ++ pointerReads m s ++ [.read (resolve m s).ea]

/-- What a shift or rotate makes of a byte `v` and the old carry `c`, as numbers (R440 to R443), and the new C, Z and N; N of ASL
and ROL is decision D7 (log 11). -/
def Obligations.ShiftBytesAsNumbers : Prop :=
  ∀ (v p : Byte),
    (let c := (flag .C p).toNat
     (aslByte v p).1.toNat = 2 * v.toNat % 256 ∧ (lsrByte v p).1.toNat = v.toNat / 2 ∧
     (rolByte v p).1.toNat = (2 * v.toNat + c) % 256 ∧ (rorByte v p).1.toNat = (v.toNat + 256 * c) / 2) ∧
    (flag .C (aslByte v p).2 = true ↔ 128 ≤ v.toNat) ∧ (flag .C (rolByte v p).2 = true ↔ 128 ≤ v.toNat) ∧
    (flag .C (lsrByte v p).2 = true ↔ v.toNat % 2 = 1) ∧ (flag .C (rorByte v p).2 = true ↔ v.toNat % 2 = 1) ∧
    (∀ f ∈ [aslByte, rolByte], (flag .Z (f v p).2 = true ↔ (f v p).1 = 0#8) ∧ flag .N (f v p).2 = (f v p).1.getLsbD 7) ∧
    (∀ f ∈ [lsrByte, rorByte], (flag .Z (f v p).2 = true ↔ (f v p).1 = 0#8) ∧ flag .N (f v p).2 = false) ∧
    ∀ f ∈ [aslByte, lsrByte, rolByte, rorByte], ∀ g, g ≠ .C → g ≠ .Z → g ≠ .N → flag g (f v p).2 = flag g p

/-- The operand of a shift or rotate (R444): in accumulator mode A becomes the result and memory is untouched; in a memory mode
the byte at EA is read once and written once and no register is written. P, the frame, the end and the accesses, for every form
of ASL, LSR, ROL and ROR. -/
def Obligations.ShiftsWorkOnAOrOnMemory : Prop :=
  ∀ (i : Instr) (tgt : Target) (s : State), i.operand = tgt.operand →
    ∀ (f : Byte → Byte → Byte × Byte),
    (i.mnemonic = .ASL ∧ f = aslByte) ∨ (i.mnemonic = .LSR ∧ f = lsrByte) ∨
      (i.mnemonic = .ROL ∧ f = rolByte) ∨ (i.mnemonic = .ROR ∧ f = rorByte) →
    ∃ t, exec i s = .next t ∧ Ends i 0 s t ∧
      match tgt with
      | .acc => t.a = (f s.a s.p).1 ∧ t.p = (f s.a s.p).2 ∧ SameRegs [.A] s t ∧ t.mem = s.mem ∧ t.bus = s.bus
      | .mem m =>
        let v := s.mem.read (resolve m s).ea.toNat
        t.mem = s.mem.write (resolve m s).ea.toNat (f v s.p).1 ∧ t.p = (f v s.p).2 ∧ SameRegs [] s t ∧
        t.bus = s.bus ++ pointerReads m s ++ [.read (resolve m s).ea, .write (resolve m s).ea (f v s.p).1]

/-- INC and DEC of every form (R460, R461): the byte at EA plus or minus 1 modulo 256, read back there afterwards; every byte
outside EA reads as before; Z and N follow the result; C and V do not change. -/
def Obligations.IncDecMemoryWrapsAndSetsZN : Prop :=
  ∀ (i : Instr) (m : MemMode) (s : State), i.operand = .mem m → i.mnemonic = .INC ∨ i.mnemonic = .DEC → s.Inv →
    ∃ t, exec i s = .next t ∧
      (let old := (s.mem.read (resolve m s).ea.toNat).toNat
       let new := t.mem.read (resolve m s).ea.toNat
       new.toNat = (if i.mnemonic = .INC then old + 1 else old + 255) % 256 ∧
       (∀ b : Nat, b ≠ (resolve m s).ea.toNat → t.mem.read b = s.mem.read b) ∧
       ZNFollow new t ∧
       t.bus = s.bus ++ pointerReads m s ++ [.read (resolve m s).ea, .write (resolve m s).ea new]) ∧
      SameFlags [.Z, .N] s t ∧ SameRegs [] s t ∧ Ends i 0 s t

/-- INX, INY, DEX and DEY (R462 to R465): the register plus or minus 1 modulo 256, Z and N follow it. -/
def Obligations.IncDecRegisterWrapsAndSetsZN : Prop :=
  ∀ (s : State),
    (∃ t, exec .inx s = .next t ∧ t.x.toNat = (s.x.toNat + 1) % 256 ∧ ZNFollow t.x t ∧ SameFlags [.Z, .N] s t ∧
      SameRegs [.X] s t ∧ t.mem = s.mem ∧ t.bus = s.bus ∧ Ends .inx 0 s t) ∧
    (∃ t, exec .iny s = .next t ∧ t.y.toNat = (s.y.toNat + 1) % 256 ∧ ZNFollow t.y t ∧ SameFlags [.Z, .N] s t ∧
      SameRegs [.Y] s t ∧ t.mem = s.mem ∧ t.bus = s.bus ∧ Ends .iny 0 s t) ∧
    (∃ t, exec .dex s = .next t ∧ t.x.toNat = (s.x.toNat + 255) % 256 ∧ ZNFollow t.x t ∧ SameFlags [.Z, .N] s t ∧
      SameRegs [.X] s t ∧ t.mem = s.mem ∧ t.bus = s.bus ∧ Ends .dex 0 s t) ∧
    (∃ t, exec .dey s = .next t ∧ t.y.toNat = (s.y.toNat + 255) % 256 ∧ ZNFollow t.y t ∧ SameFlags [.Z, .N] s t ∧
      SameRegs [.Y] s t ∧ t.mem = s.mem ∧ t.bus = s.bus ∧ Ends .dey 0 s t)

/-- CMP, CPX and CPY of every form (R480, R481, R482): the flags are CompareFlags of A, X or Y and the operand byte, whatever C and
D held; no register and no byte of memory changes. -/
def Obligations.ComparesSetFlagsOnly : Prop :=
  ∀ (i : Instr) (src : Source) (s : State), i.operand = src.operand →
    ∀ (r : Reg), (i.mnemonic = .CMP ∧ r = .A) ∨ (i.mnemonic = .CPX ∧ r = .X) ∨ (i.mnemonic = .CPY ∧ r = .Y) →
    ∃ t, exec i s = .next t ∧
      (flag .C t.p = true ↔ (load src s).val.toNat ≤ (reg r s).toNat) ∧
      (flag .Z t.p = true ↔ reg r s = (load src s).val) ∧
      (flag .N t.p = true ↔ 128 ≤ ((reg r s).toNat + 256 - (load src s).val.toNat) % 256) ∧
      SameFlags [.C, .Z, .N] s t ∧ SameRegs [] s t ∧ t.mem = s.mem ∧
      Ends i (load src s).extra s t ∧ t.bus = s.bus ++ loadReads src s

/-! ## Control flow -/

/-- The eight branches (R500 to R508): not taken, PC + 2 and 2 cycles; taken, PC + 2 plus the signed offset modulo 65536 and 3
cycles, 4 where the target is on another page than the next instruction. Nothing else changes. -/
def Obligations.BranchesTestOneFlag : Prop :=
  ∀ (i : Instr) (off : Byte) (s : State), i.operand = .rel off →
    ∃ t, exec i s = .next t ∧
      (let next := (s.pc.toNat + 2) % 65536
       let target := (((next : Int) + off.toInt) % 65536).toNat
       (branchCond i.mnemonic s.p = false → t.pc.toNat = next ∧ t.cycles = s.cycles + 2#64) ∧
       (branchCond i.mnemonic s.p = true →
          t.pc.toNat = target ∧ t.cycles = s.cycles + (if target / 256 = next / 256 then 3#64 else 4#64))) ∧
      t.p = s.p ∧ SameRegs [] s t ∧ t.mem = s.mem ∧ t.bus = s.bus

/-- JMP (R520, R521): the absolute form goes to its operand; the indirect form to the little-endian word at its pointer, whose
high byte comes from the start of the same page where the pointer ends in FF. Nothing else changes. -/
def Obligations.JumpsReplacePC : Prop :=
  ∀ (a : Addr) (s : State),
    (∃ t, exec (.jmpAbs a) s = .next t ∧ t.pc = a ∧ t.p = s.p ∧ SameRegs [] s t ∧ t.mem = s.mem ∧
      t.cycles = s.cycles + 3#64 ∧ t.bus = s.bus) ∧
    (∃ t, exec (.jmpInd a) s = .next t ∧
      (let hi := if a.toNat % 256 = 255 then a.toNat - 255 else a.toNat + 1
       t.pc.toNat = 256 * (s.mem.read hi).toNat + (s.mem.read a.toNat).toNat ∧
       t.bus = s.bus ++ [.read a, .read (BitVec.ofNat 16 hi)]) ∧
      t.p = s.p ∧ SameRegs [] s t ∧ t.mem = s.mem ∧ t.cycles = s.cycles + 5#64)

/-- JSR (R522): PC + 2, the address of its own last byte, is pushed high byte first, SP drops by 2 modulo 256, PC is the target; the
two stack bytes hold the address and every other byte reads as before. -/
def Obligations.JsrPushesTheReturnAddress : Prop :=
  ∀ (a : Addr) (s : State), s.Inv →
    ∃ t, exec (.jsr a) s = .next t ∧ t.pc = a ∧ t.sp = s.sp - 2#8 ∧
      256 * (t.mem.read (256 + s.sp.toNat)).toNat + (t.mem.read (256 + (s.sp - 1#8).toNat)).toNat = (s.pc.toNat + 2) % 65536 ∧
      (∀ b : Nat, b ≠ 256 + s.sp.toNat → b ≠ 256 + (s.sp - 1#8).toNat → t.mem.read b = s.mem.read b) ∧
      t.p = s.p ∧ SameRegs [.SP] s t ∧ t.cycles = s.cycles + 6#64 ∧
      t.bus = s.bus ++ [.write (stackAddr s.sp) (hiByte (s.pc + 2#16)), .write (stackAddr (s.sp - 1#8)) (loByte (s.pc + 2#16))]

/-- RTS (R523): the low byte is pulled first, then the high byte; PC is their address plus 1 modulo 65536. -/
def Obligations.RtsReturnsPastThePulledAddress : Prop :=
  ∀ (s : State),
    ∃ t, exec .rts s = .next t ∧
      t.pc.toNat =
        (256 * (s.mem.read (256 + (s.sp + 2#8).toNat)).toNat + (s.mem.read (256 + (s.sp + 1#8).toNat)).toNat + 1) % 65536 ∧
      t.sp = s.sp + 2#8 ∧ t.p = s.p ∧ SameRegs [.SP] s t ∧ t.mem = s.mem ∧ t.cycles = s.cycles + 6#64 ∧
      t.bus = s.bus ++ [.read (stackAddr (s.sp + 1#8)), .read (stackAddr (s.sp + 2#8))]

/-- BRK, the trap entry (R526, R620): B is set in P; PC + 2 (high, low) and then P with B set are pushed; I is set after the push;
PC is the word at the BRK vector; no other flag, register or byte changes. -/
def Obligations.BrkEntersTheTrap : Prop :=
  ∀ (s : State), s.Inv →
    ∃ t, exec .brk s = .next t ∧
      flag .B t.p = true ∧ flag .I t.p = true ∧ SameFlags [.B, .I] s t ∧
      t.sp = s.sp - 3#8 ∧
      256 * (t.mem.read (256 + s.sp.toNat)).toNat + (t.mem.read (256 + (s.sp - 1#8).toNat)).toNat = (s.pc.toNat + 2) % 65536 ∧
      t.mem.read (256 + (s.sp - 2#8).toNat) = setFlag .B true s.p ∧
      (∀ b : Nat, b ≠ 256 + s.sp.toNat → b ≠ 256 + (s.sp - 1#8).toNat → b ≠ 256 + (s.sp - 2#8).toNat →
        t.mem.read b = s.mem.read b) ∧
      t.pc.toNat = 256 * (s.mem.read 0xFFFF).toNat + (s.mem.read 0xFFFE).toNat ∧
      SameRegs [.SP] s t ∧ t.cycles = s.cycles + 7#64 ∧
      t.bus = s.bus ++ [.write (stackAddr s.sp) (hiByte (s.pc + 2#16)), .write (stackAddr (s.sp - 1#8)) (loByte (s.pc + 2#16)),
        .write (stackAddr (s.sp - 2#8)) (setFlag .B true s.p), .read 0xFFFE#16, .read 0xFFFF#16]

/-- RTI, the trap return (R527, R630): all eight bits of P, then PC low and high, are pulled; PC is not incremented (all eight bits
is decision D14, log 13). -/
def Obligations.RtiRestoresPAndPC : Prop :=
  ∀ (s : State),
    ∃ t, exec .rti s = .next t ∧ t.p = s.mem.read (256 + (s.sp + 1#8).toNat) ∧
      t.pc.toNat = 256 * (s.mem.read (256 + (s.sp + 3#8).toNat)).toNat + (s.mem.read (256 + (s.sp + 2#8).toNat)).toNat ∧
      t.sp = s.sp + 3#8 ∧ SameRegs [.SP] s t ∧ t.mem = s.mem ∧ t.cycles = s.cycles + 6#64 ∧
      t.bus = s.bus ++ [.read (stackAddr (s.sp + 1#8)), .read (stackAddr (s.sp + 2#8)), .read (stackAddr (s.sp + 3#8))]

/-! ## Stack, transfers, flags, loads and stores -/

/-- PHA and PHP (R540, R541): A, or all eight bits of P as they are (decision D21, log 13), at 0x0100 | SP; SP - 1 modulo 256. -/
def Obligations.PushesStoreThenDecrement : Prop :=
  ∀ (i : Instr) (s : State), s.Inv → i = .pha ∨ i = .php →
    ∃ t, exec i s = .next t ∧ t.sp = s.sp - 1#8 ∧
      t.mem.read (256 + s.sp.toNat) = (if i = .pha then s.a else s.p) ∧
      (∀ b : Nat, b ≠ 256 + s.sp.toNat → t.mem.read b = s.mem.read b) ∧
      t.p = s.p ∧ SameRegs [.SP] s t ∧ Ends i 0 s t ∧
      t.bus = s.bus ++ [.write (stackAddr s.sp) (if i = .pha then s.a else s.p)]

/-- PLA and PLP (R542, R543): SP + 1 modulo 256, then the byte there goes to A with Z and N, or to all eight bits of P. -/
def Obligations.PullsIncrementThenLoad : Prop :=
  ∀ (s : State),
    (let v := s.mem.read (256 + (s.sp + 1#8).toNat)
     (∃ t, exec .pla s = .next t ∧ t.a = v ∧ t.sp = s.sp + 1#8 ∧ ZNFollow v t ∧ SameFlags [.Z, .N] s t ∧
       SameRegs [.A, .SP] s t ∧ t.mem = s.mem ∧ Ends .pla 0 s t ∧ t.bus = s.bus ++ [.read (stackAddr (s.sp + 1#8))]) ∧
     (∃ t, exec .plp s = .next t ∧ t.p = v ∧ t.sp = s.sp + 1#8 ∧ SameRegs [.SP] s t ∧ t.mem = s.mem ∧ Ends .plp 0 s t ∧
       t.bus = s.bus ++ [.read (stackAddr (s.sp + 1#8))]))

/-- The transfers (R560 to R565): the destination takes the source's value, Z and N follow it for all but TXS, which changes no
flag; nothing else changes. -/
def Obligations.TransfersCopyARegister : Prop :=
  ∀ (i : Instr) (src dst : Reg) (s : State),
    (i, src, dst) ∈ [(Instr.tax, Reg.A, Reg.X), (.tay, .A, .Y), (.txa, .X, .A), (.tya, .Y, .A), (.tsx, .SP, .X), (.txs, .X, .SP)] →
    ∃ t, exec i s = .next t ∧ reg dst t = reg src s ∧ SameRegs [dst] s t ∧
      (if i = .txs then t.p = s.p else ZNFollow (reg src s) t ∧ SameFlags [.Z, .N] s t) ∧
      t.mem = s.mem ∧ t.bus = s.bus ∧ Ends i 0 s t

/-- The flag instructions (R570 to R576) write their one flag; NOP (R580) writes nothing; both only move PC by 1 and charge 2
cycles besides. Running one of them twice leaves the P that running it once leaves. -/
def Obligations.FlagInstructionsWriteOneFlag : Prop :=
  (∀ (i : Instr) (f : Flag) (b : Bool) (s : State),
    (i, f, b) ∈ [(Instr.clc, Flag.C, false), (.sec, .C, true), (.cld, .D, false), (.sed, .D, true), (.cli, .I, false),
      (.sei, .I, true), (.clv, .V, false)] →
    ∃ t, exec i s = .next t ∧ flag f t.p = b ∧ SameFlags [f] s t ∧ SameRegs [] s t ∧ t.mem = s.mem ∧ t.bus = s.bus ∧
      Ends i 0 s t ∧ ∃ u, exec i t = .next u ∧ u.p = t.p) ∧
  ∀ (s : State), exec .nop s = .next ((s.setPC (s.pc + 1#16)).setCycles (s.cycles + 2#64))

/-- LDA, LDX and LDY of every form (R590, R591, R592, the spec's general knowledge, log 12): the register takes the operand byte, Z
and N follow it; the frame, the end with the page-cross cycle, and the reads. -/
def Obligations.LoadsFillTheRegister : Prop :=
  ∀ (i : Instr) (src : Source) (s : State), i.operand = src.operand →
    ∀ (r : Reg), (i.mnemonic = .LDA ∧ r = .A) ∨ (i.mnemonic = .LDX ∧ r = .X) ∨ (i.mnemonic = .LDY ∧ r = .Y) →
    ∃ t, exec i s = .next t ∧ reg r t = (load src s).val ∧ ZNFollow (load src s).val t ∧ SameFlags [.Z, .N] s t ∧
      SameRegs [r] s t ∧ t.mem = s.mem ∧ Ends i (load src s).extra s t ∧ t.bus = s.bus ++ loadReads src s

/-- STA, STX and STY of every form (R593, R594, R595, the spec's general knowledge, log 12): the register's byte is at EA afterwards,
every byte outside EA reads as before, EA is not read, no flag and no register changes, no page-cross cycle. -/
def Obligations.StoresWriteTheRegister : Prop :=
  ∀ (i : Instr) (m : MemMode) (s : State), i.operand = .mem m → s.Inv →
    ∀ (r : Reg), (i.mnemonic = .STA ∧ r = .A) ∨ (i.mnemonic = .STX ∧ r = .X) ∨ (i.mnemonic = .STY ∧ r = .Y) →
    ∃ t, exec i s = .next t ∧ t.mem.read (resolve m s).ea.toNat = reg r s ∧
      (∀ b : Nat, b ≠ (resolve m s).ea.toNat → t.mem.read b = s.mem.read b) ∧
      t.p = s.p ∧ SameRegs [] s t ∧ Ends i 0 s t ∧
      t.bus = s.bus ++ pointerReads m s ++ [.write (resolve m s).ea (reg r s)]

/-! ## Two instructions together -/

/-- JSR and then RTS (R524): PC is past the JSR, and SP, A, X, Y and P are as before it. -/
def Obligations.JsrThenRtsComesBack : Prop :=
  ∀ (a : Addr) (s : State), s.Inv →
    ∃ t u, exec (.jsr a) s = .next t ∧ exec .rts t = .next u ∧ u.pc = s.pc + 3#16 ∧ SameRegs [] s u ∧ u.p = s.p

/-- BRK and a later RTI (R528): from any state whose SP is as BRK left it and whose three stack bytes are those BRK pushed, RTI
goes to pc0 + 2 with SP as before BRK and P as before BRK with B set. -/
def Obligations.BrkThenRtiComesBack : Prop :=
  ∀ (s : State), s.Inv →
    ∃ t, exec .brk s = .next t ∧
      ∀ (h : State), h.sp = t.sp → (∀ a : Addr, a ∈ storedTo .brk s → h.mem.read a.toNat = t.mem.read a.toNat) →
        ∃ u, exec .rti h = .next u ∧ u.pc = s.pc + 2#16 ∧ u.sp = s.sp ∧ u.p = setFlag .B true s.p

/-- PHA then PLA restores A and SP, with Z and N those of A; PHP then PLP restores P exactly, all eight bits, and SP (R544). -/
def Obligations.PushThenPullRestores : Prop :=
  ∀ (s : State), s.Inv →
    (∃ t u, exec .pha s = .next t ∧ exec .pla t = .next u ∧ u.a = s.a ∧ u.sp = s.sp ∧ ZNFollow s.a u ∧
      SameFlags [.Z, .N] s u) ∧
    (∃ t u, exec .php s = .next t ∧ exec .plp t = .next u ∧ u.p = s.p ∧ u.sp = s.sp ∧ u.a = s.a)

/-- Traps nest without limit and without a fault (R631): n BRK entries one inside the other leave SP 3n lower modulo 256 and
charge 7n cycles, and touch no byte outside the stack page. -/
def Obligations.BrkNestsWithoutLimit : Prop :=
  ∀ (n : Nat) (s : State),
    ∃ t, execTimes n .brk s = .next t ∧ t.sp = s.sp - BitVec.ofNat 8 (3 * n) ∧
      t.cycles = s.cycles + BitVec.ofNat 64 (7 * n) ∧ t.a = s.a ∧ t.x = s.x ∧ t.y = s.y ∧
      ∀ b : Nat, b / 256 ≠ 1 → t.mem.read b = s.mem.read b

/-- A byte an instruction stores is the byte the next step fetches there (R217, R711: no fence). Whatever the writer (store,
read-modify-write, push, JSR, BRK), every address it stores to is written and holds the byte written last; and a byte written
k places from the next PC is byte k of what the next fetch finds: of the encoding of the instruction, or the UNDEFINED opcode.
In particular the byte that STA, STX or STY puts where the next instruction begins is the opcode fetched. -/
def Obligations.StoredByteIsFetchedNext : Prop :=
  (∀ (i : Instr) (s : State), s.Inv →
    ∃ t l, exec i s = .next t ∧ t.bus = s.bus ++ l ∧
      (∀ a ∈ storedTo i s, ∃ v, Access.write a v ∈ l ∧ t.mem.read a.toNat = v) ∧
      ∀ (k : Nat) (v : Byte), Access.write (t.pc + BitVec.ofNat 16 k) v ∈ l →
        match fetch t with
        | .undefined op _ => k = 0 → op = v
        | .instr j _ => k < j.length → (encode j)[k]? = some v) ∧
  ∀ (i : Instr) (m : MemMode) (s : State), s.Inv → i.operand = .mem m →
    ∀ (r : Reg), (i.mnemonic = .STA ∧ r = .A) ∨ (i.mnemonic = .STX ∧ r = .X) ∨ (i.mnemonic = .STY ∧ r = .Y) →
    (resolve m s).ea = s.pc + BitVec.ofNat 16 i.length →
    ∃ t, exec i s = .next t ∧
      match fetch t with
      | .undefined op _ => op = reg r s
      | .instr j _ => (encode j).head? = some (reg r s)

/-- The halt idiom (R722): from a halted state a step answers a halted state with the same PC, registers, P and memory, 3 cycles
later: the block itself loops on. -/
def Obligations.HaltedStateLoops : Prop :=
  ∀ (s : State), halted s = true →
    ∃ t, step s = .next t ∧ halted t = true ∧ t.pc = s.pc ∧ t.p = s.p ∧ SameRegs [] s t ∧ t.mem = s.mem ∧
      t.cycles = s.cycles + 3#64

/-! ## Rules of the whole machine -/

/-- The frame on memory, for every instruction and form (R209): every byte outside the addresses it stores to reads as before; a
form that stores nothing leaves memory as it is. -/
def Obligations.MemoryChangesOnlyWhereStored : Prop :=
  ∀ (i : Instr) (s : State),
    ∃ t, exec i s = .next t ∧
      (∀ a : Addr, a ∉ storedTo i s → t.mem.read a.toNat = s.mem.read a.toNat) ∧
      (storedTo i s = [] → t.mem = s.mem)

/-- The frame on registers, for every instruction and form (R102, R103, R104): A, X, Y and SP change only where the spec lists the
instruction as their writer. -/
def Obligations.RegistersChangeOnlyWhereListed : Prop :=
  ∀ (i : Instr) (s : State), ∃ t, exec i s = .next t ∧ SameRegs (regsWritten i) s t

/-- Every instruction that does not transfer control leaves PC just past itself (R123). -/
def Obligations.PCAdvancesByTheLength : Prop :=
  ∀ (i : Instr) (s : State), i.mnemonic ∉ [.JMP, .JSR, .RTS, .BRK, .RTI] → (∀ off, i.operand ≠ .rel off) →
    ∃ t, exec i s = .next t ∧ t.pc = s.pc + BitVec.ofNat 16 i.length

/-- For all opcodes, `step` advances `cycles` by exactly the documented base cost, plus any documented page-cross or branch-taken
surcharge (R721), modulo 2^64. -/
def Obligations.CyclesAdvanceByBaseAndSurcharge : Prop :=
  ∀ (s t : State) (i : Instr) (u : State), fetch s = .instr i u → step s = .next t →
    t.cycles = s.cycles + BitVec.ofNat 64 (i.baseCycles + surcharge i s)

/-- The bus accesses of every instruction after its fetch, in order and each once, with no dummy access (R208, R209; decision
D12, log 8). They are all that reaches the host's `read`, the parameter BUS_READ (R10, R201; log 3): under any BUS_READ that
answers as plain RAM at PC and at the addresses the step reads there, the step is the plain RAM step; and the host's answer is what the
block goes by: the opcode it finds, the byte LDA takes, and the memory the host is left with. -/
def Obligations.AccessesAreThoseListed : Prop :=
  (∀ (i : Instr) (s : State),
    ∃ t l, exec i s = .next t ∧ t.bus = s.bus ++ l ∧ l.map Access.shape = expectedAccesses i s) ∧
  (∀ (adj : DecAdj) (bus : BusRead) (s : State),
    (∀ a, a = s.pc ∨ (∃ t, stepWith adj s plainRam = .next t ∧ Access.read a ∈ t.bus) → ∀ u, bus u a = plainRam u a) →
    stepWith adj s bus = stepWith adj s plainRam) ∧
  ∀ (adj : DecAdj) (bus : BusRead) (s : State),
    (dispatch (bus (s.setBus []) s.pc).1 = none →
      stepWith adj s bus = .fault (.unknownOpcode (bus (s.setBus []) s.pc).1)) ∧
    (dispatch (bus (s.setBus []) s.pc).1 ≠ none → ∃ t, stepWith adj s bus = .next t) ∧
    ∀ (a : Addr), ∃ t, execWith adj (.ldaAbs a) s bus = .next t ∧ t.a = (bus s a).1 ∧ t.mem = (bus s a).2 ∧
      t.bus = s.bus ++ [.read a]

/-- The access record is an observation: two states that differ in nothing else run the same instruction to states that differ in
nothing else, and step to the same state (log 5). -/
def Obligations.AccessRecordInfluencesNothing : Prop :=
  (∀ (s : State) (l : List Access), step (s.setBus l) = step s) ∧
  ∀ (i : Instr) (s : State) (l : List Access),
    ∃ t m, exec i s = .next t ∧ exec i (s.setBus l) = .next (t.setBus m)

/-- Whom a flag can influence (the "read by" column of R106; R108): an instruction not listed as a reader of a flag gives, in a
state that differs in that flag alone, a state that differs in that flag at most. In particular I changes the result of no
instruction but the byte PHP and BRK push, and D only ADC and SBC besides. -/
def Obligations.FlagsInfluenceOnlyTheirReaders : Prop :=
  ∀ (f : Flag) (i : Instr) (s : State) (b : Bool), i.mnemonic ∉ flagReaders f →
    ∃ t b', exec i s = .next t ∧ exec i (s.setP (setFlag f b s.p)) = .next (t.setP (setFlag f b' t.p))

/-! ## Reset -/

/-- The `reset` transaction (R702), from any state: SP - 3 modulo 256 with no stack byte written, PC from 0xFFFC and 0xFFFD, low byte
first; A, X, Y, P, cycles and memory untouched; the two vector reads are its only accesses. -/
def Obligations.ResetTransactionLoadsTheVector : Prop :=
  ∀ (s : State),
    (let t := resetTransaction s
     t.sp.toNat = (s.sp.toNat + 253) % 256 ∧
     t.pc.toNat = 256 * (s.mem.read 0xFFFD).toNat + (s.mem.read 0xFFFC).toNat ∧
     t.a = s.a ∧ t.x = s.x ∧ t.y = s.y ∧ t.p = s.p ∧ t.cycles = s.cycles ∧ t.mem = s.mem ∧
     t.bus = [.read 0xFFFC#16, .read 0xFFFD#16])

/-- `State.reset` is that transaction run on the power-on state (the power-on values are the model's choice, logs 1 and 2). -/
def Obligations.ResetStateIsResetOfPowerOn : Prop := State.reset = resetTransaction State.powerOn
end

