-- ==== Sys2Proof/Laws/Bits.lean ====
section
/-! SUPPORT. Bytes, words and addresses as numbers, and the two halves of a word. -/

namespace Sys2Proof.Machine

theorem zext16_toNat (b : Byte) : (zext16 b).toNat = b.toNat := by
  have := b.isLt
  simp only [zext16, BitVec.toNat_setWidth]
  omega

theorem loByte_toNat (a : Addr) : (loByte a).toNat = a.toNat % 256 := by
  simp only [loByte, BitVec.extractLsb'_toNat, Nat.shiftRight_zero]

theorem hiByte_toNat (a : Addr) : (hiByte a).toNat = a.toNat / 256 := by
  have := a.isLt
  simp only [hiByte, BitVec.extractLsb'_toNat, Nat.shiftRight_eq_div_pow]
  omega

/-- `hi:lo = hi*256 + lo` (R12). -/
theorem wordOf_toNat (hi lo : Byte) : (wordOf hi lo).toNat = 256 * hi.toNat + lo.toNat := by
  have h1 := hi.isLt
  have h2 := lo.isLt
  simp only [wordOf, BitVec.toNat_or, BitVec.toNat_shiftLeft, BitVec.toNat_setWidth, Nat.shiftLeft_eq]
  rw [Nat.mod_eq_of_lt (show hi.toNat < 2 ^ 16 by omega), Nat.mod_eq_of_lt (show lo.toNat < 2 ^ 16 by omega),
    Nat.mod_eq_of_lt (show hi.toNat * 2 ^ 8 < 2 ^ 16 by omega), Nat.mul_comm hi.toNat,
    ← Nat.two_pow_add_eq_or_of_lt (show lo.toNat < 2 ^ 8 by omega)]

@[simp] theorem hiByte_wordOf (hi lo : Byte) : hiByte (wordOf hi lo) = hi := by
  have h1 := lo.isLt
  apply BitVec.eq_of_toNat_eq
  rw [hiByte_toNat, wordOf_toNat]
  omega

@[simp] theorem loByte_wordOf (hi lo : Byte) : loByte (wordOf hi lo) = lo := by
  have h1 := lo.isLt
  apply BitVec.eq_of_toNat_eq
  rw [loByte_toNat, wordOf_toNat]
  omega

@[simp] theorem wordOf_hi_lo (a : Addr) : wordOf (hiByte a) (loByte a) = a := by
  apply BitVec.eq_of_toNat_eq
  rw [wordOf_toNat, hiByte_toNat, loByte_toNat]
  omega

/-- A stack byte is at 256 + SP. -/
theorem stackAddr_toNat (sp : Byte) : (stackAddr sp).toNat = 256 + sp.toNat := by
  have h := sp.isLt
  have e : Config.stackPage.toNat = 2 ^ 8 * 1 := rfl
  simp only [stackAddr, BitVec.toNat_or, zext16_toNat, e]
  rw [← Nat.two_pow_add_eq_or_of_lt (show sp.toNat < 2 ^ 8 by omega)]

/-- The pages of two addresses differ as numbers (R16, R321). -/
theorem crossed_iff (a b : Addr) : crossed a b = true ↔ a.toNat / 256 ≠ b.toNat / 256 := by
  rw [← hiByte_toNat, ← hiByte_toNat]
  simp only [crossed, bne_iff_ne, ne_eq, BitVec.toNat_eq]

/-- Stack addresses of different stack pointers differ. -/
theorem stackAddr_inj {p q : Byte} (h : stackAddr p = stackAddr q) : p = q := by
  have := congrArg BitVec.toNat h
  rw [stackAddr_toNat, stackAddr_toNat] at this
  exact BitVec.eq_of_toNat_eq (by omega)

theorem stackAddr_ne {p q : Byte} (h : p ≠ q) : (stackAddr p).toNat ≠ (stackAddr q).toNat :=
  fun e => h (stackAddr_inj (BitVec.eq_of_toNat_eq e))

/-- A signed offset added to an address, as integers modulo 65536 (R330). -/
theorem add_sext16_toNat (n : Addr) (off : Byte) :
    (n + sext16 off).toNat = (((n.toNat : Int) + off.toInt) % 65536).toNat := by
  have h1 : (n + sext16 off).toInt = (n.toInt + off.toInt).bmod (2 ^ 16) := by
    rw [BitVec.toInt_add, sext16, BitVec.toInt_signExtend_of_le (by omega)]
  have h2 : n + sext16 off = BitVec.ofInt 16 (n.toNat + off.toInt) := by
    apply BitVec.eq_of_toInt_eq
    rw [h1, BitVec.toInt_ofInt, BitVec.toInt_eq_toNat_bmod, Int.bmod_add_bmod]
  rw [h2, BitVec.toNat_ofInt]
  rfl

end Sys2Proof.Machine
end

