-- ==== Sys2Proof/Laws/Flags.lean ====
section
/-! SUPPORT. One bit of P is read and written at a time: what a flag reads after a flag is written, and P is its eight flags. -/

namespace Sys2Proof.Machine

/-- Bit `k` of a byte with bit `n` alone set to `b`. -/
theorem getLsbD_bitAt (n : Nat) (b : Bool) (k : Nat) :
    (bitAt n b).getLsbD k = (decide (k < 8) && decide (k = n) && b) := by
  simp only [bitAt, BitVec.getLsbD_shiftLeft, BitVec.getLsbD_setWidth, BitVec.getLsbD_ofBool]
  by_cases h : k < 8 <;> by_cases h2 : k = n <;> by_cases h3 : k < n <;> simp_all <;> omega

theorem flagBit_lt (f : Flag) : flagBit f < 8 := by cases f <;> decide

theorem flagBit_inj {f g : Flag} (h : flagBit f = flagBit g) : f = g := by
  cases f <;> cases g <;> first | rfl | exact absurd h (by decide)

/-- Writing one flag changes that flag only (R13). -/
@[simp] theorem flag_setFlag (f g : Flag) (b : Bool) (p : Byte) :
    flag f (setFlag g b p) = if f = g then b else flag f p := by
  have hf := flagBit_lt f
  have hg := flagBit_lt g
  by_cases h : f = g
  · subst h
    simp only [flag, setFlag, BitVec.getLsbD_or, BitVec.getLsbD_and, BitVec.getLsbD_not, getLsbD_bitAt, hf]
    simp
  · have hne : flagBit f ≠ flagBit g := fun e => h (flagBit_inj e)
    simp only [flag, setFlag, BitVec.getLsbD_or, BitVec.getLsbD_and, BitVec.getLsbD_not, getLsbD_bitAt, hf, hne]
    simp [h]

/-- A byte is its eight flags. -/
theorem eq_of_flags {p q : Byte} (h : ∀ f, flag f p = flag f q) : p = q := by
  apply BitVec.eq_of_getLsbD_eq
  intro i hi
  have hC := h .C; have hZ := h .Z; have hI := h .I; have hD := h .D
  have hB := h .B; have hU := h .U; have hV := h .V; have hN := h .N
  simp only [flag, flagBit] at *
  have : i = 0 ∨ i = 1 ∨ i = 2 ∨ i = 3 ∨ i = 4 ∨ i = 5 ∨ i = 6 ∨ i = 7 := by omega
  rcases this with h | h | h | h | h | h | h | h <;> subst h <;> assumption

/-- Writing a flag with its own value changes nothing. -/
theorem setFlag_self (f : Flag) (p : Byte) : setFlag f (flag f p) p = p :=
  eq_of_flags fun g => by rw [flag_setFlag]; split <;> simp_all

/-- The later of two writes of one flag stands. -/
theorem setFlag_setFlag (f : Flag) (a b : Bool) (p : Byte) : setFlag f a (setFlag f b p) = setFlag f a p :=
  eq_of_flags fun g => by simp only [flag_setFlag]; split <;> rfl

/-- Writes of two different flags may be exchanged. -/
theorem setFlag_comm {f g : Flag} (h : f ≠ g) (a b : Bool) (p : Byte) :
    setFlag f a (setFlag g b p) = setFlag g b (setFlag f a p) :=
  eq_of_flags fun k => by
    simp only [flag_setFlag]
    split <;> split <;> simp_all

end Sys2Proof.Machine
end

