-- ==== Sys2Proof/Laws/Memory.lean ====
section
/-! SUPPORT. The laws of memory: a write is read back, leaves every other address alone, and keeps the canonical form. -/

namespace Sys2Proof.Machine.Memory

@[simp] theorem read_nil (a : Nat) : Memory.read [] a = Config.unlistedByte := rfl

theorem read_cons (k : Nat) (v : Byte) (m : Memory) (a : Nat) :
    Memory.read ((k, v) :: m) a = if k = a then v else Memory.read m a := rfl

/-- Below the least listed address, memory reads the unlisted byte. -/
theorem read_below {lo a : Nat} {m : Memory} (h : wfFrom lo m = true) (ha : a < lo) :
    Memory.read m a = Config.unlistedByte := by
  induction m generalizing lo with
  | nil => rfl
  | cons c m ih =>
    obtain ⟨k, v⟩ := c
    simp only [wfFrom, Bool.and_eq_true, decide_eq_true_eq] at h
    rw [read_cons, if_neg (by omega)]
    exact ih h.2 (by omega)

/-- A canonical form from `lo` on is one from any lower bound on. -/
theorem wfFrom_mono {lo hi : Nat} {m : Memory} (h : wfFrom hi m = true) (hle : lo ≤ hi) : wfFrom lo m = true := by
  cases m with
  | nil => rfl
  | cons c m =>
    obtain ⟨k, v⟩ := c
    simp only [wfFrom, Bool.and_eq_true, decide_eq_true_eq] at h ⊢
    exact ⟨⟨⟨by omega, h.1.1.2⟩, h.1.2⟩, h.2⟩

/-- A cell put in front is read back where the rest reads the unlisted byte there. -/
theorem read_front_same {a : Nat} {v : Byte} {m : Memory} (h : Memory.read m a = Config.unlistedByte) :
    Memory.read (Memory.cons a v m) a = v := by
  unfold Memory.cons
  split
  · rw [h]; exact Eq.symm ‹_›
  · simp [read_cons]

/-- A cell put in front is read at no other address. -/
theorem read_front_other {a b : Nat} {v : Byte} {m : Memory} (h : b ≠ a) :
    Memory.read (Memory.cons a v m) b = Memory.read m b := by
  unfold Memory.cons
  split
  · rfl
  · rw [read_cons, if_neg (by omega)]

/-- A cell put in front keeps the canonical form. -/
theorem wfFrom_front {lo a : Nat} {v : Byte} {m : Memory} (h : wfFrom (a + 1) m = true) (hlo : lo ≤ a) (ha : a < 65536) :
    wfFrom lo (Memory.cons a v m) = true := by
  unfold Memory.cons
  split
  · exact wfFrom_mono h (by omega)
  · simp only [wfFrom, Bool.and_eq_true, decide_eq_true_eq, bne_iff_ne, ne_eq]
    exact ⟨⟨⟨hlo, ha⟩, ‹_›⟩, h⟩

/-- Read after write, at the address written. -/
theorem read_write_same {m : Memory} (h : m.wf = true) (a : Nat) (v : Byte) : (m.write a v).read a = v := by
  unfold Memory.wf at h
  generalize 0 = lo at h
  induction m generalizing lo with
  | nil => exact read_front_same rfl
  | cons c m ih =>
    obtain ⟨k, w⟩ := c
    have hw := h
    simp only [wfFrom, Bool.and_eq_true, decide_eq_true_eq] at h
    simp only [Memory.write]
    split
    · refine read_front_same ?_
      rw [read_cons, if_neg (by omega)]
      exact read_below h.2 (by omega)
    · split
      · refine read_front_same (read_below h.2 (by omega))
      · rw [read_cons, if_neg (by omega)]
        exact ih (k + 1) h.2

/-- Read after write, at any other address; it needs no canonical form. -/
theorem read_write_other (m : Memory) {a b : Nat} (v : Byte) (h : b ≠ a) : (m.write a v).read b = m.read b := by
  induction m with
  | nil => exact read_front_other h
  | cons c m ih =>
    obtain ⟨k, w⟩ := c
    simp only [Memory.write]
    split
    · exact read_front_other h
    · split
      · rw [read_front_other h, read_cons, if_neg (by omega)]
      · rw [read_cons, read_cons, ih]

/-- A write keeps the canonical form from a bound on. -/
theorem wfFrom_write {lo : Nat} {m : Memory} (h : wfFrom lo m = true) {a : Nat} (hlo : lo ≤ a) (ha : a < 65536) (v : Byte) :
    wfFrom lo (m.write a v) = true := by
  induction m generalizing lo with
  | nil => exact wfFrom_front rfl hlo ha
  | cons c m ih =>
    obtain ⟨k, w⟩ := c
    have hw := h
    simp only [wfFrom, Bool.and_eq_true, decide_eq_true_eq] at h
    simp only [Memory.write]
    split
    · refine wfFrom_front ?_ hlo ha
      simp only [wfFrom, Bool.and_eq_true, decide_eq_true_eq]
      exact ⟨⟨⟨by omega, h.1.1.2⟩, h.1.2⟩, h.2⟩
    · split
      · subst_vars
        exact wfFrom_front h.2 hlo ha
      · simp only [wfFrom, Bool.and_eq_true, decide_eq_true_eq]
        exact ⟨h.1, ih h.2 (by omega)⟩

/-- A write at a 16-bit address keeps the canonical form. -/
theorem wf_write {m : Memory} (h : m.wf = true) (a : Addr) (v : Byte) : (m.write a.toNat v).wf = true :=
  wfFrom_write h (Nat.zero_le _) a.isLt v

end Sys2Proof.Machine.Memory
end

