-- ==== Sys2Proof/Laws/Ops.lean ====
section
/-! SUPPORT. What each named operation does to each field of the state, once. Every operation that reads memory changes only
the access record; every operation that writes it writes the bytes it names. -/

namespace Sys2Proof.Machine

/-! `memRead`. -/

/-- Everything one read does, under any BUS_READ: the byte is the host's answer, the host's memory is what the host leaves, the
read is recorded, and no register changes. -/
theorem memRead_any (a : Addr) (s : State) (bus : BusRead) :
    memRead a s bus = ⟨(bus s a).1, (s.setMem (bus s a).2).logged (.read a)⟩ := rfl

@[simp] theorem plainRam_fst (s : State) (a : Addr) : (plainRam s a).1 = s.mem.read a.toNat := rfl
@[simp] theorem plainRam_snd (s : State) (a : Addr) : (plainRam s a).2 = s.mem := rfl

/-! From here on BUS_READ is the reference: a read changes nothing but the access record. -/

@[simp] theorem memRead_val (a : Addr) (s : State) : (memRead a s).val = s.mem.read a.toNat := rfl
@[simp] theorem memRead_st (a : Addr) (s : State) : (memRead a s).st = s.logged (.read a) := rfl

/-! `memWrite`. -/

@[simp] theorem memWrite_a (a : Addr) (v : Byte) (s : State) : (memWrite a v s).a = s.a := rfl
@[simp] theorem memWrite_x (a : Addr) (v : Byte) (s : State) : (memWrite a v s).x = s.x := rfl
@[simp] theorem memWrite_y (a : Addr) (v : Byte) (s : State) : (memWrite a v s).y = s.y := rfl
@[simp] theorem memWrite_sp (a : Addr) (v : Byte) (s : State) : (memWrite a v s).sp = s.sp := rfl
@[simp] theorem memWrite_pc (a : Addr) (v : Byte) (s : State) : (memWrite a v s).pc = s.pc := rfl
@[simp] theorem memWrite_p (a : Addr) (v : Byte) (s : State) : (memWrite a v s).p = s.p := rfl
@[simp] theorem memWrite_cycles (a : Addr) (v : Byte) (s : State) : (memWrite a v s).cycles = s.cycles := rfl
@[simp] theorem memWrite_mem (a : Addr) (v : Byte) (s : State) : (memWrite a v s).mem = s.mem.write a.toNat v := rfl
@[simp] theorem memWrite_bus (a : Addr) (v : Byte) (s : State) : (memWrite a v s).bus = s.bus ++ [.write a v] := rfl

/-! `readPair`. -/

@[simp] theorem readPair_val (l h : Addr) (s : State) :
    (readPair l h s).val = wordOf (s.mem.read h.toNat) (s.mem.read l.toNat) := by simp [readPair]

@[simp] theorem readPair_st (l h : Addr) (s : State) :
    (readPair l h s).st = (s.logged (.read l)).logged (.read h) := by simp [readPair]

/-! `read16`, `read16zp` and `read16page` are `readPair` at two addresses. -/

theorem read16_eq (a : Addr) (s : State) : read16 a s = readPair a (a + 1#16) s := rfl

theorem read16zp_eq (z : Byte) (s : State) : read16zp z s = readPair (zext16 z) (zext16 (z + 1#8)) s := rfl

theorem read16page_eq (ptr : Addr) (s : State) :
    read16page ptr s = readPair ptr ((ptr &&& 0xFF00#16) ||| ((ptr + 1#16) &&& 0x00FF#16)) s := rfl

/-! `push`. -/

@[simp] theorem push_a (v : Byte) (s : State) : (push v s).a = s.a := rfl
@[simp] theorem push_x (v : Byte) (s : State) : (push v s).x = s.x := rfl
@[simp] theorem push_y (v : Byte) (s : State) : (push v s).y = s.y := rfl
@[simp] theorem push_sp (v : Byte) (s : State) : (push v s).sp = s.sp - 1#8 := rfl
@[simp] theorem push_pc (v : Byte) (s : State) : (push v s).pc = s.pc := rfl
@[simp] theorem push_p (v : Byte) (s : State) : (push v s).p = s.p := rfl
@[simp] theorem push_cycles (v : Byte) (s : State) : (push v s).cycles = s.cycles := rfl
@[simp] theorem push_mem (v : Byte) (s : State) : (push v s).mem = s.mem.write (stackAddr s.sp).toNat v := rfl
@[simp] theorem push_bus (v : Byte) (s : State) : (push v s).bus = s.bus ++ [.write (stackAddr s.sp) v] := rfl

/-! `pull`. -/

@[simp] theorem pull_val (s : State) : (pull s).val = s.mem.read (stackAddr (s.sp + 1#8)).toNat := rfl

@[simp] theorem pull_st (s : State) :
    (pull s).st = (s.setSP (s.sp + 1#8)).logged (.read (stackAddr (s.sp + 1#8))) := rfl

/-! `charge`. -/

@[simp] theorem charge_a (n : Nat) (s : State) : (charge n s).a = s.a := rfl
@[simp] theorem charge_x (n : Nat) (s : State) : (charge n s).x = s.x := rfl
@[simp] theorem charge_y (n : Nat) (s : State) : (charge n s).y = s.y := rfl
@[simp] theorem charge_sp (n : Nat) (s : State) : (charge n s).sp = s.sp := rfl
@[simp] theorem charge_pc (n : Nat) (s : State) : (charge n s).pc = s.pc := rfl
@[simp] theorem charge_p (n : Nat) (s : State) : (charge n s).p = s.p := rfl
@[simp] theorem charge_cycles (n : Nat) (s : State) : (charge n s).cycles = s.cycles + BitVec.ofNat 64 n := rfl
@[simp] theorem charge_mem (n : Nat) (s : State) : (charge n s).mem = s.mem := rfl
@[simp] theorem charge_bus (n : Nat) (s : State) : (charge n s).bus = s.bus := rfl

/-! `goto`. -/

@[simp] theorem goto_a (t : Addr) (n : Nat) (s : State) : (goto t n s).a = s.a := rfl
@[simp] theorem goto_x (t : Addr) (n : Nat) (s : State) : (goto t n s).x = s.x := rfl
@[simp] theorem goto_y (t : Addr) (n : Nat) (s : State) : (goto t n s).y = s.y := rfl
@[simp] theorem goto_sp (t : Addr) (n : Nat) (s : State) : (goto t n s).sp = s.sp := rfl
@[simp] theorem goto_pc (t : Addr) (n : Nat) (s : State) : (goto t n s).pc = t := rfl
@[simp] theorem goto_p (t : Addr) (n : Nat) (s : State) : (goto t n s).p = s.p := rfl
@[simp] theorem goto_cycles (t : Addr) (n : Nat) (s : State) : (goto t n s).cycles = s.cycles + BitVec.ofNat 64 n := rfl
@[simp] theorem goto_mem (t : Addr) (n : Nat) (s : State) : (goto t n s).mem = s.mem := rfl
@[simp] theorem goto_bus (t : Addr) (n : Nat) (s : State) : (goto t n s).bus = s.bus := rfl

/-! `finish`. -/

@[simp] theorem finish_a (len n : Nat) (s : State) : (finish len n s).a = s.a := rfl
@[simp] theorem finish_x (len n : Nat) (s : State) : (finish len n s).x = s.x := rfl
@[simp] theorem finish_y (len n : Nat) (s : State) : (finish len n s).y = s.y := rfl
@[simp] theorem finish_sp (len n : Nat) (s : State) : (finish len n s).sp = s.sp := rfl
@[simp] theorem finish_pc (len n : Nat) (s : State) : (finish len n s).pc = s.pc + BitVec.ofNat 16 len := rfl
@[simp] theorem finish_p (len n : Nat) (s : State) : (finish len n s).p = s.p := rfl
@[simp] theorem finish_cycles (len n : Nat) (s : State) : (finish len n s).cycles = s.cycles + BitVec.ofNat 64 n := rfl
@[simp] theorem finish_mem (len n : Nat) (s : State) : (finish len n s).mem = s.mem := rfl
@[simp] theorem finish_bus (len n : Nat) (s : State) : (finish len n s).bus = s.bus := rfl

/-! `push16` and `pull16`. -/

theorem push16_eq (v : Addr) (s : State) : push16 v s = push (loByte v) (push (hiByte v) s) := rfl

theorem sp_sub_two (sp : Byte) : sp - 1#8 - 1#8 = sp - 2#8 := by
  rw [BitVec.sub_sub]; rfl

theorem sp_add_two (sp : Byte) : sp + 1#8 + 1#8 = sp + 2#8 := by
  rw [BitVec.add_assoc]; rfl

@[simp] theorem push16_sp (v : Addr) (s : State) : (push16 v s).sp = s.sp - 2#8 := sp_sub_two s.sp

@[simp] theorem push16_mem (v : Addr) (s : State) :
    (push16 v s).mem = (s.mem.write (stackAddr s.sp).toNat (hiByte v)).write (stackAddr (s.sp - 1#8)).toNat (loByte v) := rfl

@[simp] theorem push16_bus (v : Addr) (s : State) :
    (push16 v s).bus = s.bus ++ [.write (stackAddr s.sp) (hiByte v), .write (stackAddr (s.sp - 1#8)) (loByte v)] := by
  simp [push16]

@[simp] theorem push16_a (v : Addr) (s : State) : (push16 v s).a = s.a := by simp [push16]
@[simp] theorem push16_x (v : Addr) (s : State) : (push16 v s).x = s.x := by simp [push16]
@[simp] theorem push16_y (v : Addr) (s : State) : (push16 v s).y = s.y := by simp [push16]
@[simp] theorem push16_pc (v : Addr) (s : State) : (push16 v s).pc = s.pc := by simp [push16]
@[simp] theorem push16_p (v : Addr) (s : State) : (push16 v s).p = s.p := by simp [push16]
@[simp] theorem push16_cycles (v : Addr) (s : State) : (push16 v s).cycles = s.cycles := by simp [push16]

@[simp] theorem pull16_val (s : State) :
    (pull16 s).val = wordOf (s.mem.read (stackAddr (s.sp + 2#8)).toNat) (s.mem.read (stackAddr (s.sp + 1#8)).toNat) := by
  simp [pull16, sp_add_two]

@[simp] theorem pull16_st (s : State) :
    (pull16 s).st =
      ((s.setSP (s.sp + 2#8)).logged (.read (stackAddr (s.sp + 1#8)))).logged (.read (stackAddr (s.sp + 2#8))) := by
  simp [pull16, sp_add_two, State.logged, State.setSP]

end Sys2Proof.Machine
end

