-- ==== Sys2Proof/Laws/Operands.lean ====
section
/-! SUPPORT. Resolving, loading, storing and modifying an operand: the resolver and the read side change only the access record;
the write sides write one byte, at the effective address. -/

namespace Sys2Proof.Machine

/-- The resolver changes nothing but the access record, which gains the mode's pointer reads. -/
theorem resolve_st (m : MemMode) (s : State) : (resolve m s).st = s.setBus (s.bus ++ pointerReads m s) := by
  cases m <;>
    simp [resolve, indexed, read16zp, pointerReads, State.setBus, State.logged]

/-- The read side changes nothing but the access record, which gains the pointer reads and the data read. -/
theorem load_st (src : Source) (s : State) :
    (load src s).st = s.setBus (s.bus ++ loadReads src s) := by
  cases src with
  | imm v => simp [load, loadReads, State.setBus]
  | mem m => simp [load, loadReads, resolve_st, State.setBus, State.logged]

/-- The byte the read side of a memory mode yields. -/
theorem load_mem_val (m : MemMode) (s : State) : (load (.mem m) s).val = s.mem.read (resolve m s).ea.toNat := by
  simp [load, resolve_st]

theorem load_imm_val (v : Byte) (s : State) : (load (.imm v) s).val = v := rfl

/-- The page-cross cycle of a read operand is 0 or 1. -/
theorem load_extra_le (src : Source) (s : State) : (load src s).extra ≤ 1 := by
  cases src with
  | imm v => simp [load]
  | mem m => simp only [load]; split <;> omega

/-! The fields after the resolver and after the read side. -/

@[simp] theorem resolve_st_a (m : MemMode) (s : State) : ((resolve m s).st).a = s.a := by
  rw [resolve_st]; rfl
@[simp] theorem resolve_st_x (m : MemMode) (s : State) : ((resolve m s).st).x = s.x := by
  rw [resolve_st]; rfl
@[simp] theorem resolve_st_y (m : MemMode) (s : State) : ((resolve m s).st).y = s.y := by
  rw [resolve_st]; rfl
@[simp] theorem resolve_st_sp (m : MemMode) (s : State) : ((resolve m s).st).sp = s.sp := by
  rw [resolve_st]; rfl
@[simp] theorem resolve_st_pc (m : MemMode) (s : State) : ((resolve m s).st).pc = s.pc := by
  rw [resolve_st]; rfl
@[simp] theorem resolve_st_p (m : MemMode) (s : State) : ((resolve m s).st).p = s.p := by
  rw [resolve_st]; rfl
@[simp] theorem resolve_st_cycles (m : MemMode) (s : State) : ((resolve m s).st).cycles = s.cycles := by
  rw [resolve_st]; rfl
@[simp] theorem resolve_st_mem (m : MemMode) (s : State) : ((resolve m s).st).mem = s.mem := by
  rw [resolve_st]; rfl
@[simp] theorem resolve_st_bus (m : MemMode) (s : State) : ((resolve m s).st).bus = s.bus ++ pointerReads m s := by
  rw [resolve_st]; rfl

@[simp] theorem load_st_a (src : Source) (s : State) : ((load src s).st).a = s.a := by
  rw [load_st]; rfl
@[simp] theorem load_st_x (src : Source) (s : State) : ((load src s).st).x = s.x := by
  rw [load_st]; rfl
@[simp] theorem load_st_y (src : Source) (s : State) : ((load src s).st).y = s.y := by
  rw [load_st]; rfl
@[simp] theorem load_st_sp (src : Source) (s : State) : ((load src s).st).sp = s.sp := by
  rw [load_st]; rfl
@[simp] theorem load_st_pc (src : Source) (s : State) : ((load src s).st).pc = s.pc := by
  rw [load_st]; rfl
@[simp] theorem load_st_p (src : Source) (s : State) : ((load src s).st).p = s.p := by
  rw [load_st]; rfl
@[simp] theorem load_st_cycles (src : Source) (s : State) : ((load src s).st).cycles = s.cycles := by
  rw [load_st]; rfl
@[simp] theorem load_st_mem (src : Source) (s : State) : ((load src s).st).mem = s.mem := by
  rw [load_st]; rfl
@[simp] theorem load_st_bus (src : Source) (s : State) : ((load src s).st).bus = s.bus ++ loadReads src s := by
  rw [load_st]; rfl

/-! `storeAt` writes one byte at EA. -/

@[simp] theorem storeAt_a (m : MemMode) (v : Byte) (s : State) : (storeAt m v s).a = s.a := by
  simp [storeAt]
@[simp] theorem storeAt_x (m : MemMode) (v : Byte) (s : State) : (storeAt m v s).x = s.x := by
  simp [storeAt]
@[simp] theorem storeAt_y (m : MemMode) (v : Byte) (s : State) : (storeAt m v s).y = s.y := by
  simp [storeAt]
@[simp] theorem storeAt_sp (m : MemMode) (v : Byte) (s : State) : (storeAt m v s).sp = s.sp := by
  simp [storeAt]
@[simp] theorem storeAt_pc (m : MemMode) (v : Byte) (s : State) : (storeAt m v s).pc = s.pc := by
  simp [storeAt]
@[simp] theorem storeAt_p (m : MemMode) (v : Byte) (s : State) : (storeAt m v s).p = s.p := by
  simp [storeAt]
@[simp] theorem storeAt_cycles (m : MemMode) (v : Byte) (s : State) : (storeAt m v s).cycles = s.cycles := by
  simp [storeAt]
@[simp] theorem storeAt_mem (m : MemMode) (v : Byte) (s : State) : (storeAt m v s).mem = s.mem.write (resolve m s).ea.toNat v := by
  simp [storeAt]
@[simp] theorem storeAt_bus (m : MemMode) (v : Byte) (s : State) : (storeAt m v s).bus = s.bus ++ pointerReads m s ++ [.write (resolve m s).ea v] := by
  simp [storeAt]

/-! `modifyMem` reads and writes one byte at EA and sets P. -/

@[simp] theorem modifyMem_a (m : MemMode) (f : Byte → Byte → Byte × Byte) (s : State) : (modifyMem m f s).a = s.a := by
  simp [modifyMem]
@[simp] theorem modifyMem_x (m : MemMode) (f : Byte → Byte → Byte × Byte) (s : State) : (modifyMem m f s).x = s.x := by
  simp [modifyMem]
@[simp] theorem modifyMem_y (m : MemMode) (f : Byte → Byte → Byte × Byte) (s : State) : (modifyMem m f s).y = s.y := by
  simp [modifyMem]
@[simp] theorem modifyMem_sp (m : MemMode) (f : Byte → Byte → Byte × Byte) (s : State) : (modifyMem m f s).sp = s.sp := by
  simp [modifyMem]
@[simp] theorem modifyMem_pc (m : MemMode) (f : Byte → Byte → Byte × Byte) (s : State) : (modifyMem m f s).pc = s.pc := by
  simp [modifyMem]
@[simp] theorem modifyMem_p (m : MemMode) (f : Byte → Byte → Byte × Byte) (s : State) : (modifyMem m f s).p = (f (s.mem.read (resolve m s).ea.toNat) s.p).2 := by
  simp [modifyMem]
@[simp] theorem modifyMem_cycles (m : MemMode) (f : Byte → Byte → Byte × Byte) (s : State) : (modifyMem m f s).cycles = s.cycles := by
  simp [modifyMem]
@[simp] theorem modifyMem_mem (m : MemMode) (f : Byte → Byte → Byte × Byte) (s : State) : (modifyMem m f s).mem = s.mem.write (resolve m s).ea.toNat (f (s.mem.read (resolve m s).ea.toNat) s.p).1 := by
  simp [modifyMem]
@[simp] theorem modifyMem_bus (m : MemMode) (f : Byte → Byte → Byte × Byte) (s : State) : (modifyMem m f s).bus = s.bus ++ pointerReads m s ++ [.read (resolve m s).ea, .write (resolve m s).ea (f (s.mem.read (resolve m s).ea.toNat) s.p).1] := by
  simp [modifyMem]

end Sys2Proof.Machine
end

