-- ==== Sys2Proof/Laws/Step.lean ====
section
/-! SUPPORT. What a fetch can find and what a step can do, once: later proofs cite these instead of unfolding `step`. -/

namespace Sys2Proof.Machine

/-- An UNDEFINED opcode: one access, the opcode read. -/
theorem fetch_undefined {s : State} (h : dispatch (opcodeAt s) = none) :
    fetch s = .undefined (opcodeAt s) (s.setBus [.read s.pc]) := by
  simp [fetch, h, State.setBus, State.logged]

/-- Format F1: the opcode read alone. -/
theorem fetch_f1 {s : State} {row : Row} {i : Instr} (h : dispatch (opcodeAt s) = some row) (hf : row.form = .f1 i) :
    fetch s = .instr i (s.setBus [.read s.pc]) := by
  simp [fetch, h, hf, State.setBus, State.logged]

/-- Format F2: the opcode and one operand byte. -/
theorem fetch_f2 {s : State} {row : Row} {build : Byte → Instr} (h : dispatch (opcodeAt s) = some row)
    (hf : row.form = .f2 build) :
    fetch s = .instr (build (s.mem.read (s.pc + 1#16).toNat)) (s.setBus [.read s.pc, .read (s.pc + 1#16)]) := by
  simp [fetch, h, hf, State.setBus, State.logged]

/-- Format F3: the opcode and two operand bytes, the low one first. -/
theorem fetch_f3 {s : State} {row : Row} {build : Addr → Instr} (h : dispatch (opcodeAt s) = some row)
    (hf : row.form = .f3 build) :
    fetch s = .instr (build (wordOf (s.mem.read (s.pc + 2#16).toNat) (s.mem.read (s.pc + 1#16).toNat)))
      (s.setBus [.read s.pc, .read (s.pc + 1#16), .read (s.pc + 2#16)]) := by
  simp [fetch, h, hf, State.setBus, State.logged]

/-- A fetch changes nothing but the access record. -/
theorem fetch_cases (s : State) :
    (∃ op l, fetch s = .undefined op (s.setBus l)) ∨ (∃ i l, fetch s = .instr i (s.setBus l)) := by
  cases h : dispatch (opcodeAt s) with
  | none => exact .inl ⟨_, _, fetch_undefined h⟩
  | some row =>
    cases hf : row.form with
    | f1 i => exact .inr ⟨_, _, fetch_f1 h hf⟩
    | f2 build => exact .inr ⟨_, _, fetch_f2 h hf⟩
    | f3 build => exact .inr ⟨_, _, fetch_f3 h hf⟩

/-- If a step answers a next state, it ran one instruction from the same state but for the access record. -/
theorem step_next {s t : State} (h : step s = .next t) :
    ∃ i l, fetch s = .instr i (s.setBus l) ∧ exec i (s.setBus l) = .next t := by
  unfold step at h
  rcases fetch_cases s with ⟨op, l, hf⟩ | ⟨i, l, hf⟩
  · rw [hf] at h; cases h
  · rw [hf] at h; exact ⟨i, l, hf, h⟩

/-- The record a fetch starts from does not matter. -/
theorem fetch_setBus (s : State) (l : List Access) : fetch (s.setBus l) = fetch s := rfl

end Sys2Proof.Machine
end

