-- ==== Sys2Proof/Laws/Exec.lean ====
section
/-! SUPPORT. One lemma for each group of instructions of one shape: `exec` of every form is the shared operation at the operand
and the base cost of the opcode table. Proofs about a mnemonic cite these and never split over its forms again. -/

namespace Sys2Proof.Machine

theorem exec_adc {i : Instr} {src : Source} (s : State) (hm : i.mnemonic = .ADC) (ho : i.operand = src.operand) :
    exec i s = .next (adc i.baseCycles src s) := by
  cases i <;> cases hm <;> cases src <;> cases ho <;> rfl

theorem exec_sbc {i : Instr} {src : Source} (s : State) (hm : i.mnemonic = .SBC) (ho : i.operand = src.operand) :
    exec i s = .next (sbc i.baseCycles src s) := by
  cases i <;> cases hm <;> cases src <;> cases ho <;> rfl

theorem exec_and {i : Instr} {src : Source} (s : State) (hm : i.mnemonic = .AND) (ho : i.operand = src.operand) :
    exec i s = .next (logical (· &&& ·) i.baseCycles src s) := by
  cases i <;> cases hm <;> cases src <;> cases ho <;> rfl

theorem exec_ora {i : Instr} {src : Source} (s : State) (hm : i.mnemonic = .ORA) (ho : i.operand = src.operand) :
    exec i s = .next (logical (· ||| ·) i.baseCycles src s) := by
  cases i <;> cases hm <;> cases src <;> cases ho <;> rfl

theorem exec_eor {i : Instr} {src : Source} (s : State) (hm : i.mnemonic = .EOR) (ho : i.operand = src.operand) :
    exec i s = .next (logical (· ^^^ ·) i.baseCycles src s) := by
  cases i <;> cases hm <;> cases src <;> cases ho <;> rfl

theorem exec_cmp {i : Instr} {src : Source} (s : State) (hm : i.mnemonic = .CMP) (ho : i.operand = src.operand) :
    exec i s = .next (compareReg s.a i.baseCycles src s) := by
  cases i <;> cases hm <;> cases src <;> cases ho <;> rfl

theorem exec_cpx {i : Instr} {src : Source} (s : State) (hm : i.mnemonic = .CPX) (ho : i.operand = src.operand) :
    exec i s = .next (compareReg s.x i.baseCycles src s) := by
  cases i <;> cases hm <;> cases src <;> cases ho <;> rfl

theorem exec_cpy {i : Instr} {src : Source} (s : State) (hm : i.mnemonic = .CPY) (ho : i.operand = src.operand) :
    exec i s = .next (compareReg s.y i.baseCycles src s) := by
  cases i <;> cases hm <;> cases src <;> cases ho <;> rfl

theorem exec_lda {i : Instr} {src : Source} (s : State) (hm : i.mnemonic = .LDA) (ho : i.operand = src.operand) :
    exec i s = .next (loadReg State.setA i.baseCycles src s) := by
  cases i <;> cases hm <;> cases src <;> cases ho <;> rfl

theorem exec_ldx {i : Instr} {src : Source} (s : State) (hm : i.mnemonic = .LDX) (ho : i.operand = src.operand) :
    exec i s = .next (loadReg State.setX i.baseCycles src s) := by
  cases i <;> cases hm <;> cases src <;> cases ho <;> rfl

theorem exec_ldy {i : Instr} {src : Source} (s : State) (hm : i.mnemonic = .LDY) (ho : i.operand = src.operand) :
    exec i s = .next (loadReg State.setY i.baseCycles src s) := by
  cases i <;> cases hm <;> cases src <;> cases ho <;> rfl

theorem exec_asl {i : Instr} {t : Target} (s : State) (hm : i.mnemonic = .ASL) (ho : i.operand = t.operand) :
    exec i s = .next (shift aslByte i.baseCycles t s) := by
  cases i <;> cases hm <;> cases t <;> cases ho <;> rfl

theorem exec_lsr {i : Instr} {t : Target} (s : State) (hm : i.mnemonic = .LSR) (ho : i.operand = t.operand) :
    exec i s = .next (shift lsrByte i.baseCycles t s) := by
  cases i <;> cases hm <;> cases t <;> cases ho <;> rfl

theorem exec_rol {i : Instr} {t : Target} (s : State) (hm : i.mnemonic = .ROL) (ho : i.operand = t.operand) :
    exec i s = .next (shift rolByte i.baseCycles t s) := by
  cases i <;> cases hm <;> cases t <;> cases ho <;> rfl

theorem exec_ror {i : Instr} {t : Target} (s : State) (hm : i.mnemonic = .ROR) (ho : i.operand = t.operand) :
    exec i s = .next (shift rorByte i.baseCycles t s) := by
  cases i <;> cases hm <;> cases t <;> cases ho <;> rfl

theorem exec_bit {i : Instr} {m : MemMode} (s : State) (hm : i.mnemonic = .BIT) (ho : i.operand = .mem m) :
    exec i s = .next (bitTest i.baseCycles m s) := by
  cases i <;> cases hm <;> cases ho <;> rfl

theorem exec_inc {i : Instr} {m : MemMode} (s : State) (hm : i.mnemonic = .INC) (ho : i.operand = .mem m) :
    exec i s = .next (stepMem 1#8 i.baseCycles m s) := by
  cases i <;> cases hm <;> cases ho <;> rfl

theorem exec_dec {i : Instr} {m : MemMode} (s : State) (hm : i.mnemonic = .DEC) (ho : i.operand = .mem m) :
    exec i s = .next (stepMem (-1#8) i.baseCycles m s) := by
  cases i <;> cases hm <;> cases ho <;> rfl

theorem exec_sta {i : Instr} {m : MemMode} (s : State) (hm : i.mnemonic = .STA) (ho : i.operand = .mem m) :
    exec i s = .next (storeReg s.a i.baseCycles m s) := by
  cases i <;> cases hm <;> cases ho <;> rfl

theorem exec_stx {i : Instr} {m : MemMode} (s : State) (hm : i.mnemonic = .STX) (ho : i.operand = .mem m) :
    exec i s = .next (storeReg s.x i.baseCycles m s) := by
  cases i <;> cases hm <;> cases ho <;> rfl

theorem exec_sty {i : Instr} {m : MemMode} (s : State) (hm : i.mnemonic = .STY) (ho : i.operand = .mem m) :
    exec i s = .next (storeReg s.y i.baseCycles m s) := by
  cases i <;> cases hm <;> cases ho <;> rfl

theorem exec_branch {i : Instr} {off : Byte} (s : State) (ho : i.operand = .rel off) :
    exec i s = .next (branch (branchCond i.mnemonic s.p) off s) := by
  cases i <;> cases ho <;>
    simp [exec, execBcc, execBcs, execBeq, execBne, execBmi, execBpl, execBvc, execBvs, branchCond, Instr.mnemonic]

/-- Every instruction is of one of these shapes: reading an operand byte, working on a memory byte, shifting, branching, jumping,
or of one byte. -/
theorem instr_shape (i : Instr) :
    (∃ src : Source, i.operand = src.operand ∧ i.mnemonic ∈ [.ADC, .SBC, .AND, .ORA, .EOR, .CMP, .CPX, .CPY, .LDA, .LDX, .LDY]) ∨
    (∃ m, i.operand = .mem m ∧ i.mnemonic ∈ [.BIT, .INC, .DEC, .STA, .STX, .STY]) ∨
    (∃ t : Target, i.operand = t.operand ∧ i.mnemonic ∈ [.ASL, .LSR, .ROL, .ROR]) ∨
    (∃ off, i.operand = .rel off) ∨
    (∃ a, i = .jmpAbs a) ∨ (∃ a, i = .jmpInd a) ∨ (∃ a, i = .jsr a) ∨ i.operand = .imp := by
  cases i <;> first
    | (refine .inl ⟨.imm _, rfl, ?_⟩; simp [Instr.mnemonic]; done)
    | (refine .inl ⟨.mem _, rfl, ?_⟩; simp [Instr.mnemonic]; done)
    | (refine .inr (.inl ⟨_, rfl, ?_⟩); simp [Instr.mnemonic]; done)
    | (refine .inr (.inr (.inl ⟨.acc, rfl, ?_⟩)); simp [Instr.mnemonic])
    | (refine .inr (.inr (.inl ⟨.mem _, rfl, ?_⟩)); simp [Instr.mnemonic])
    | exact .inr (.inr (.inr (.inl ⟨_, rfl⟩)))
    | exact .inr (.inr (.inr (.inr (.inl ⟨_, rfl⟩))))
    | exact .inr (.inr (.inr (.inr (.inr (.inl ⟨_, rfl⟩)))))
    | exact .inr (.inr (.inr (.inr (.inr (.inr (.inl ⟨_, rfl⟩))))))
    | exact .inr (.inr (.inr (.inr (.inr (.inr (.inr rfl))))))

/-- Registers unchanged, one by one. -/
theorem sameRegs_of {l : List Reg} {s t : State}
    (h : (Reg.A ∉ l → t.a = s.a) ∧ (Reg.X ∉ l → t.x = s.x) ∧ (Reg.Y ∉ l → t.y = s.y) ∧ (Reg.SP ∉ l → t.sp = s.sp)) :
    SameRegs l s t := by
  intro r hr
  cases r <;> simp_all [reg]

theorem srcLength_eq {i : Instr} {src : Source} (h : i.operand = src.operand) : srcLength src = i.length := by
  simp [srcLength, Instr.length, Instr.mode, h]

theorem tgtLength_eq {i : Instr} {t : Target} (h : i.operand = t.operand) : tgtLength t = i.length := by
  simp [tgtLength, Instr.length, Instr.mode, h]

theorem memLength_eq {i : Instr} {m : MemMode} (h : i.operand = .mem m) : m.mode.length = i.length := by
  simp [Instr.length, Instr.mode, h, Operand.mode]

end Sys2Proof.Machine
end

