-- ==== Sys2Proof/Laws/Meanings.lean ====
section
/-! SUPPORT. What each shared meaning does to each field of the state, once: its result, its frame, its end and its accesses. -/

namespace Sys2Proof.Machine

/-! `adcWith`. -/

@[simp] theorem adcWith_a (adj : DecAdj) (base : Nat) (src : Source) (s : State) :
    (adcWith adj base src s).a = (aluAdd adj s.a (load src s).val s.p).r := by
  simp [adcWith]
@[simp] theorem adcWith_x (adj : DecAdj) (base : Nat) (src : Source) (s : State) :
    (adcWith adj base src s).x = s.x := by
  simp [adcWith]
@[simp] theorem adcWith_y (adj : DecAdj) (base : Nat) (src : Source) (s : State) :
    (adcWith adj base src s).y = s.y := by
  simp [adcWith]
@[simp] theorem adcWith_sp (adj : DecAdj) (base : Nat) (src : Source) (s : State) :
    (adcWith adj base src s).sp = s.sp := by
  simp [adcWith]
@[simp] theorem adcWith_pc (adj : DecAdj) (base : Nat) (src : Source) (s : State) :
    (adcWith adj base src s).pc = s.pc + BitVec.ofNat 16 (srcLength src) := by
  simp [adcWith]
@[simp] theorem adcWith_p (adj : DecAdj) (base : Nat) (src : Source) (s : State) :
    (adcWith adj base src s).p = setAluFlags (aluAdd adj s.a (load src s).val s.p) s.p := by
  simp [adcWith]
@[simp] theorem adcWith_cycles (adj : DecAdj) (base : Nat) (src : Source) (s : State) :
    (adcWith adj base src s).cycles = s.cycles + BitVec.ofNat 64 (base + (load src s).extra) := by
  simp [adcWith]
@[simp] theorem adcWith_mem (adj : DecAdj) (base : Nat) (src : Source) (s : State) :
    (adcWith adj base src s).mem = s.mem := by
  simp [adcWith]
@[simp] theorem adcWith_bus (adj : DecAdj) (base : Nat) (src : Source) (s : State) :
    (adcWith adj base src s).bus = s.bus ++ loadReads src s := by
  simp [adcWith]

/-! `sbcWith`. -/

@[simp] theorem sbcWith_a (adj : DecAdj) (base : Nat) (src : Source) (s : State) :
    (sbcWith adj base src s).a = (aluSub adj s.a (load src s).val s.p).r := by
  simp [sbcWith]
@[simp] theorem sbcWith_x (adj : DecAdj) (base : Nat) (src : Source) (s : State) :
    (sbcWith adj base src s).x = s.x := by
  simp [sbcWith]
@[simp] theorem sbcWith_y (adj : DecAdj) (base : Nat) (src : Source) (s : State) :
    (sbcWith adj base src s).y = s.y := by
  simp [sbcWith]
@[simp] theorem sbcWith_sp (adj : DecAdj) (base : Nat) (src : Source) (s : State) :
    (sbcWith adj base src s).sp = s.sp := by
  simp [sbcWith]
@[simp] theorem sbcWith_pc (adj : DecAdj) (base : Nat) (src : Source) (s : State) :
    (sbcWith adj base src s).pc = s.pc + BitVec.ofNat 16 (srcLength src) := by
  simp [sbcWith]
@[simp] theorem sbcWith_p (adj : DecAdj) (base : Nat) (src : Source) (s : State) :
    (sbcWith adj base src s).p = setAluFlags (aluSub adj s.a (load src s).val s.p) s.p := by
  simp [sbcWith]
@[simp] theorem sbcWith_cycles (adj : DecAdj) (base : Nat) (src : Source) (s : State) :
    (sbcWith adj base src s).cycles = s.cycles + BitVec.ofNat 64 (base + (load src s).extra) := by
  simp [sbcWith]
@[simp] theorem sbcWith_mem (adj : DecAdj) (base : Nat) (src : Source) (s : State) :
    (sbcWith adj base src s).mem = s.mem := by
  simp [sbcWith]
@[simp] theorem sbcWith_bus (adj : DecAdj) (base : Nat) (src : Source) (s : State) :
    (sbcWith adj base src s).bus = s.bus ++ loadReads src s := by
  simp [sbcWith]

/-! `logical`. -/

@[simp] theorem logical_a (op : Byte → Byte → Byte) (base : Nat) (src : Source) (s : State) :
    (logical op base src s).a = op s.a (load src s).val := by
  simp [logical]
@[simp] theorem logical_x (op : Byte → Byte → Byte) (base : Nat) (src : Source) (s : State) :
    (logical op base src s).x = s.x := by
  simp [logical]
@[simp] theorem logical_y (op : Byte → Byte → Byte) (base : Nat) (src : Source) (s : State) :
    (logical op base src s).y = s.y := by
  simp [logical]
@[simp] theorem logical_sp (op : Byte → Byte → Byte) (base : Nat) (src : Source) (s : State) :
    (logical op base src s).sp = s.sp := by
  simp [logical]
@[simp] theorem logical_pc (op : Byte → Byte → Byte) (base : Nat) (src : Source) (s : State) :
    (logical op base src s).pc = s.pc + BitVec.ofNat 16 (srcLength src) := by
  simp [logical]
@[simp] theorem logical_p (op : Byte → Byte → Byte) (base : Nat) (src : Source) (s : State) :
    (logical op base src s).p = setZN (op s.a (load src s).val) s.p := by
  simp [logical]
@[simp] theorem logical_cycles (op : Byte → Byte → Byte) (base : Nat) (src : Source) (s : State) :
    (logical op base src s).cycles = s.cycles + BitVec.ofNat 64 (base + (load src s).extra) := by
  simp [logical]
@[simp] theorem logical_mem (op : Byte → Byte → Byte) (base : Nat) (src : Source) (s : State) :
    (logical op base src s).mem = s.mem := by
  simp [logical]
@[simp] theorem logical_bus (op : Byte → Byte → Byte) (base : Nat) (src : Source) (s : State) :
    (logical op base src s).bus = s.bus ++ loadReads src s := by
  simp [logical]

/-! `compareReg`. -/

@[simp] theorem compareReg_a (reg : Byte) (base : Nat) (src : Source) (s : State) :
    (compareReg reg base src s).a = s.a := by
  simp [compareReg]
@[simp] theorem compareReg_x (reg : Byte) (base : Nat) (src : Source) (s : State) :
    (compareReg reg base src s).x = s.x := by
  simp [compareReg]
@[simp] theorem compareReg_y (reg : Byte) (base : Nat) (src : Source) (s : State) :
    (compareReg reg base src s).y = s.y := by
  simp [compareReg]
@[simp] theorem compareReg_sp (reg : Byte) (base : Nat) (src : Source) (s : State) :
    (compareReg reg base src s).sp = s.sp := by
  simp [compareReg]
@[simp] theorem compareReg_pc (reg : Byte) (base : Nat) (src : Source) (s : State) :
    (compareReg reg base src s).pc = s.pc + BitVec.ofNat 16 (srcLength src) := by
  simp [compareReg]
@[simp] theorem compareReg_p (reg : Byte) (base : Nat) (src : Source) (s : State) :
    (compareReg reg base src s).p = compareFlags reg (load src s).val s.p := by
  simp [compareReg]
@[simp] theorem compareReg_cycles (reg : Byte) (base : Nat) (src : Source) (s : State) :
    (compareReg reg base src s).cycles = s.cycles + BitVec.ofNat 64 (base + (load src s).extra) := by
  simp [compareReg]
@[simp] theorem compareReg_mem (reg : Byte) (base : Nat) (src : Source) (s : State) :
    (compareReg reg base src s).mem = s.mem := by
  simp [compareReg]
@[simp] theorem compareReg_bus (reg : Byte) (base : Nat) (src : Source) (s : State) :
    (compareReg reg base src s).bus = s.bus ++ loadReads src s := by
  simp [compareReg]

/-! `loadReg` into A. -/

@[simp] theorem loadRegA_a (base : Nat) (src : Source) (s : State) :
    (loadReg State.setA base src s).a = (load src s).val := by
  simp [loadReg]
@[simp] theorem loadRegA_x (base : Nat) (src : Source) (s : State) :
    (loadReg State.setA base src s).x = s.x := by
  simp [loadReg]
@[simp] theorem loadRegA_y (base : Nat) (src : Source) (s : State) :
    (loadReg State.setA base src s).y = s.y := by
  simp [loadReg]
@[simp] theorem loadRegA_sp (base : Nat) (src : Source) (s : State) :
    (loadReg State.setA base src s).sp = s.sp := by
  simp [loadReg]
@[simp] theorem loadRegA_pc (base : Nat) (src : Source) (s : State) :
    (loadReg State.setA base src s).pc = s.pc + BitVec.ofNat 16 (srcLength src) := by
  simp [loadReg]
@[simp] theorem loadRegA_p (base : Nat) (src : Source) (s : State) :
    (loadReg State.setA base src s).p = setZN (load src s).val s.p := by
  simp [loadReg]
@[simp] theorem loadRegA_cycles (base : Nat) (src : Source) (s : State) :
    (loadReg State.setA base src s).cycles = s.cycles + BitVec.ofNat 64 (base + (load src s).extra) := by
  simp [loadReg]
@[simp] theorem loadRegA_mem (base : Nat) (src : Source) (s : State) :
    (loadReg State.setA base src s).mem = s.mem := by
  simp [loadReg]
@[simp] theorem loadRegA_bus (base : Nat) (src : Source) (s : State) :
    (loadReg State.setA base src s).bus = s.bus ++ loadReads src s := by
  simp [loadReg]

/-! `loadReg` into X. -/

@[simp] theorem loadRegX_a (base : Nat) (src : Source) (s : State) :
    (loadReg State.setX base src s).a = s.a := by
  simp [loadReg]
@[simp] theorem loadRegX_x (base : Nat) (src : Source) (s : State) :
    (loadReg State.setX base src s).x = (load src s).val := by
  simp [loadReg]
@[simp] theorem loadRegX_y (base : Nat) (src : Source) (s : State) :
    (loadReg State.setX base src s).y = s.y := by
  simp [loadReg]
@[simp] theorem loadRegX_sp (base : Nat) (src : Source) (s : State) :
    (loadReg State.setX base src s).sp = s.sp := by
  simp [loadReg]
@[simp] theorem loadRegX_pc (base : Nat) (src : Source) (s : State) :
    (loadReg State.setX base src s).pc = s.pc + BitVec.ofNat 16 (srcLength src) := by
  simp [loadReg]
@[simp] theorem loadRegX_p (base : Nat) (src : Source) (s : State) :
    (loadReg State.setX base src s).p = setZN (load src s).val s.p := by
  simp [loadReg]
@[simp] theorem loadRegX_cycles (base : Nat) (src : Source) (s : State) :
    (loadReg State.setX base src s).cycles = s.cycles + BitVec.ofNat 64 (base + (load src s).extra) := by
  simp [loadReg]
@[simp] theorem loadRegX_mem (base : Nat) (src : Source) (s : State) :
    (loadReg State.setX base src s).mem = s.mem := by
  simp [loadReg]
@[simp] theorem loadRegX_bus (base : Nat) (src : Source) (s : State) :
    (loadReg State.setX base src s).bus = s.bus ++ loadReads src s := by
  simp [loadReg]

/-! `loadReg` into Y. -/

@[simp] theorem loadRegY_a (base : Nat) (src : Source) (s : State) :
    (loadReg State.setY base src s).a = s.a := by
  simp [loadReg]
@[simp] theorem loadRegY_x (base : Nat) (src : Source) (s : State) :
    (loadReg State.setY base src s).x = s.x := by
  simp [loadReg]
@[simp] theorem loadRegY_y (base : Nat) (src : Source) (s : State) :
    (loadReg State.setY base src s).y = (load src s).val := by
  simp [loadReg]
@[simp] theorem loadRegY_sp (base : Nat) (src : Source) (s : State) :
    (loadReg State.setY base src s).sp = s.sp := by
  simp [loadReg]
@[simp] theorem loadRegY_pc (base : Nat) (src : Source) (s : State) :
    (loadReg State.setY base src s).pc = s.pc + BitVec.ofNat 16 (srcLength src) := by
  simp [loadReg]
@[simp] theorem loadRegY_p (base : Nat) (src : Source) (s : State) :
    (loadReg State.setY base src s).p = setZN (load src s).val s.p := by
  simp [loadReg]
@[simp] theorem loadRegY_cycles (base : Nat) (src : Source) (s : State) :
    (loadReg State.setY base src s).cycles = s.cycles + BitVec.ofNat 64 (base + (load src s).extra) := by
  simp [loadReg]
@[simp] theorem loadRegY_mem (base : Nat) (src : Source) (s : State) :
    (loadReg State.setY base src s).mem = s.mem := by
  simp [loadReg]
@[simp] theorem loadRegY_bus (base : Nat) (src : Source) (s : State) :
    (loadReg State.setY base src s).bus = s.bus ++ loadReads src s := by
  simp [loadReg]

/-! `bitTest`. -/

@[simp] theorem bitTest_a (base : Nat) (m : MemMode) (s : State) :
    (bitTest base m s).a = s.a := by
  simp [bitTest, load_mem_val]
@[simp] theorem bitTest_x (base : Nat) (m : MemMode) (s : State) :
    (bitTest base m s).x = s.x := by
  simp [bitTest, load_mem_val]
@[simp] theorem bitTest_y (base : Nat) (m : MemMode) (s : State) :
    (bitTest base m s).y = s.y := by
  simp [bitTest, load_mem_val]
@[simp] theorem bitTest_sp (base : Nat) (m : MemMode) (s : State) :
    (bitTest base m s).sp = s.sp := by
  simp [bitTest, load_mem_val]
@[simp] theorem bitTest_pc (base : Nat) (m : MemMode) (s : State) :
    (bitTest base m s).pc = s.pc + BitVec.ofNat 16 m.mode.length := by
  simp [bitTest, load_mem_val]
@[simp] theorem bitTest_p (base : Nat) (m : MemMode) (s : State) :
    (bitTest base m s).p = setFlag .V ((s.mem.read (resolve m s).ea.toNat).getLsbD 6) (setFlag .N ((s.mem.read (resolve m s).ea.toNat).getLsbD 7)
      (setFlag .Z ((s.a &&& s.mem.read (resolve m s).ea.toNat) == 0#8) s.p)) := by
  simp [bitTest, load_mem_val]
@[simp] theorem bitTest_cycles (base : Nat) (m : MemMode) (s : State) :
    (bitTest base m s).cycles = s.cycles + BitVec.ofNat 64 base := by
  simp [bitTest, load_mem_val]
@[simp] theorem bitTest_mem (base : Nat) (m : MemMode) (s : State) :
    (bitTest base m s).mem = s.mem := by
  simp [bitTest, load_mem_val]
@[simp] theorem bitTest_bus (base : Nat) (m : MemMode) (s : State) :
    (bitTest base m s).bus = s.bus ++ loadReads (.mem m) s := by
  simp [bitTest, load_mem_val]

/-! `storeReg`. -/

@[simp] theorem storeReg_a (v : Byte) (base : Nat) (m : MemMode) (s : State) :
    (storeReg v base m s).a = s.a := by
  simp [storeReg]
@[simp] theorem storeReg_x (v : Byte) (base : Nat) (m : MemMode) (s : State) :
    (storeReg v base m s).x = s.x := by
  simp [storeReg]
@[simp] theorem storeReg_y (v : Byte) (base : Nat) (m : MemMode) (s : State) :
    (storeReg v base m s).y = s.y := by
  simp [storeReg]
@[simp] theorem storeReg_sp (v : Byte) (base : Nat) (m : MemMode) (s : State) :
    (storeReg v base m s).sp = s.sp := by
  simp [storeReg]
@[simp] theorem storeReg_pc (v : Byte) (base : Nat) (m : MemMode) (s : State) :
    (storeReg v base m s).pc = s.pc + BitVec.ofNat 16 m.mode.length := by
  simp [storeReg]
@[simp] theorem storeReg_p (v : Byte) (base : Nat) (m : MemMode) (s : State) :
    (storeReg v base m s).p = s.p := by
  simp [storeReg]
@[simp] theorem storeReg_cycles (v : Byte) (base : Nat) (m : MemMode) (s : State) :
    (storeReg v base m s).cycles = s.cycles + BitVec.ofNat 64 base := by
  simp [storeReg]
@[simp] theorem storeReg_mem (v : Byte) (base : Nat) (m : MemMode) (s : State) :
    (storeReg v base m s).mem = s.mem.write (resolve m s).ea.toNat v := by
  simp [storeReg]
@[simp] theorem storeReg_bus (v : Byte) (base : Nat) (m : MemMode) (s : State) :
    (storeReg v base m s).bus = s.bus ++ pointerReads m s ++ [.write (resolve m s).ea v] := by
  simp [storeReg]

/-! `stepMem`. -/

@[simp] theorem stepMem_a (d : Byte) (base : Nat) (m : MemMode) (s : State) :
    (stepMem d base m s).a = s.a := by
  simp [stepMem]
@[simp] theorem stepMem_x (d : Byte) (base : Nat) (m : MemMode) (s : State) :
    (stepMem d base m s).x = s.x := by
  simp [stepMem]
@[simp] theorem stepMem_y (d : Byte) (base : Nat) (m : MemMode) (s : State) :
    (stepMem d base m s).y = s.y := by
  simp [stepMem]
@[simp] theorem stepMem_sp (d : Byte) (base : Nat) (m : MemMode) (s : State) :
    (stepMem d base m s).sp = s.sp := by
  simp [stepMem]
@[simp] theorem stepMem_pc (d : Byte) (base : Nat) (m : MemMode) (s : State) :
    (stepMem d base m s).pc = s.pc + BitVec.ofNat 16 m.mode.length := by
  simp [stepMem]
@[simp] theorem stepMem_p (d : Byte) (base : Nat) (m : MemMode) (s : State) :
    (stepMem d base m s).p = setZN ((s.mem.read (resolve m s).ea.toNat) + d) s.p := by
  simp [stepMem, stepByte]
@[simp] theorem stepMem_cycles (d : Byte) (base : Nat) (m : MemMode) (s : State) :
    (stepMem d base m s).cycles = s.cycles + BitVec.ofNat 64 base := by
  simp [stepMem]
@[simp] theorem stepMem_mem (d : Byte) (base : Nat) (m : MemMode) (s : State) :
    (stepMem d base m s).mem = s.mem.write (resolve m s).ea.toNat ((s.mem.read (resolve m s).ea.toNat) + d) := by
  simp [stepMem, stepByte]
@[simp] theorem stepMem_bus (d : Byte) (base : Nat) (m : MemMode) (s : State) :
    (stepMem d base m s).bus = s.bus ++ pointerReads m s ++ [.read (resolve m s).ea, .write (resolve m s).ea ((s.mem.read (resolve m s).ea.toNat) + d)] := by
  simp [stepMem, stepByte]

/-! `shift` of the accumulator. -/

@[simp] theorem shift_acc_a (f : Byte → Byte → Byte × Byte) (base : Nat) (s : State) :
    (shift f base .acc s).a = (f s.a s.p).1 := by
  simp [shift, modify, tgtLength, Target.operand, Operand.mode, Mode.length]
@[simp] theorem shift_acc_x (f : Byte → Byte → Byte × Byte) (base : Nat) (s : State) :
    (shift f base .acc s).x = s.x := by
  simp [shift, modify, tgtLength, Target.operand, Operand.mode, Mode.length]
@[simp] theorem shift_acc_y (f : Byte → Byte → Byte × Byte) (base : Nat) (s : State) :
    (shift f base .acc s).y = s.y := by
  simp [shift, modify, tgtLength, Target.operand, Operand.mode, Mode.length]
@[simp] theorem shift_acc_sp (f : Byte → Byte → Byte × Byte) (base : Nat) (s : State) :
    (shift f base .acc s).sp = s.sp := by
  simp [shift, modify, tgtLength, Target.operand, Operand.mode, Mode.length]
@[simp] theorem shift_acc_pc (f : Byte → Byte → Byte × Byte) (base : Nat) (s : State) :
    (shift f base .acc s).pc = s.pc + 1#16 := by
  simp [shift, modify, tgtLength, Target.operand, Operand.mode, Mode.length]
@[simp] theorem shift_acc_p (f : Byte → Byte → Byte × Byte) (base : Nat) (s : State) :
    (shift f base .acc s).p = (f s.a s.p).2 := by
  simp [shift, modify, tgtLength, Target.operand, Operand.mode, Mode.length]
@[simp] theorem shift_acc_cycles (f : Byte → Byte → Byte × Byte) (base : Nat) (s : State) :
    (shift f base .acc s).cycles = s.cycles + BitVec.ofNat 64 base := by
  simp [shift, modify, tgtLength, Target.operand, Operand.mode, Mode.length]
@[simp] theorem shift_acc_mem (f : Byte → Byte → Byte × Byte) (base : Nat) (s : State) :
    (shift f base .acc s).mem = s.mem := by
  simp [shift, modify, tgtLength, Target.operand, Operand.mode, Mode.length]
@[simp] theorem shift_acc_bus (f : Byte → Byte → Byte × Byte) (base : Nat) (s : State) :
    (shift f base .acc s).bus = s.bus := by
  simp [shift, modify, tgtLength, Target.operand, Operand.mode, Mode.length]

/-! `shift` of memory. -/

@[simp] theorem shift_mem_a (f : Byte → Byte → Byte × Byte) (base : Nat) (m : MemMode) (s : State) :
    (shift f base (.mem m) s).a = s.a := by
  simp [shift, modify, tgtLength, Target.operand, Operand.mode]
@[simp] theorem shift_mem_x (f : Byte → Byte → Byte × Byte) (base : Nat) (m : MemMode) (s : State) :
    (shift f base (.mem m) s).x = s.x := by
  simp [shift, modify, tgtLength, Target.operand, Operand.mode]
@[simp] theorem shift_mem_y (f : Byte → Byte → Byte × Byte) (base : Nat) (m : MemMode) (s : State) :
    (shift f base (.mem m) s).y = s.y := by
  simp [shift, modify, tgtLength, Target.operand, Operand.mode]
@[simp] theorem shift_mem_sp (f : Byte → Byte → Byte × Byte) (base : Nat) (m : MemMode) (s : State) :
    (shift f base (.mem m) s).sp = s.sp := by
  simp [shift, modify, tgtLength, Target.operand, Operand.mode]
@[simp] theorem shift_mem_pc (f : Byte → Byte → Byte × Byte) (base : Nat) (m : MemMode) (s : State) :
    (shift f base (.mem m) s).pc = s.pc + BitVec.ofNat 16 m.mode.length := by
  simp [shift, modify, tgtLength, Target.operand, Operand.mode]
@[simp] theorem shift_mem_p (f : Byte → Byte → Byte × Byte) (base : Nat) (m : MemMode) (s : State) :
    (shift f base (.mem m) s).p = (f (s.mem.read (resolve m s).ea.toNat) s.p).2 := by
  simp [shift, modify, tgtLength, Target.operand, Operand.mode]
@[simp] theorem shift_mem_cycles (f : Byte → Byte → Byte × Byte) (base : Nat) (m : MemMode) (s : State) :
    (shift f base (.mem m) s).cycles = s.cycles + BitVec.ofNat 64 base := by
  simp [shift, modify, tgtLength, Target.operand, Operand.mode]
@[simp] theorem shift_mem_mem (f : Byte → Byte → Byte × Byte) (base : Nat) (m : MemMode) (s : State) :
    (shift f base (.mem m) s).mem = s.mem.write (resolve m s).ea.toNat (f (s.mem.read (resolve m s).ea.toNat) s.p).1 := by
  simp [shift, modify, tgtLength, Target.operand, Operand.mode]
@[simp] theorem shift_mem_bus (f : Byte → Byte → Byte × Byte) (base : Nat) (m : MemMode) (s : State) :
    (shift f base (.mem m) s).bus = s.bus ++ pointerReads m s ++ [.read (resolve m s).ea, .write (resolve m s).ea (f (s.mem.read (resolve m s).ea.toNat) s.p).1] := by
  simp [shift, modify, tgtLength, Target.operand, Operand.mode]

/-! `branch`. -/

@[simp] theorem branch_a (cond : Bool) (off : Byte) (s : State) : (branch cond off s).a = s.a := by
  cases cond <;> rfl
@[simp] theorem branch_x (cond : Bool) (off : Byte) (s : State) : (branch cond off s).x = s.x := by
  cases cond <;> rfl
@[simp] theorem branch_y (cond : Bool) (off : Byte) (s : State) : (branch cond off s).y = s.y := by
  cases cond <;> rfl
@[simp] theorem branch_sp (cond : Bool) (off : Byte) (s : State) : (branch cond off s).sp = s.sp := by
  cases cond <;> rfl
@[simp] theorem branch_p (cond : Bool) (off : Byte) (s : State) : (branch cond off s).p = s.p := by
  cases cond <;> rfl
@[simp] theorem branch_mem (cond : Bool) (off : Byte) (s : State) : (branch cond off s).mem = s.mem := by
  cases cond <;> rfl
@[simp] theorem branch_bus (cond : Bool) (off : Byte) (s : State) : (branch cond off s).bus = s.bus := by
  cases cond <;> rfl

@[simp] theorem branch_pc (cond : Bool) (off : Byte) (s : State) :
    (branch cond off s).pc = if cond then s.pc + 2#16 + sext16 off else s.pc + 2#16 := by
  cases cond <;> rfl

@[simp] theorem branch_cycles (cond : Bool) (off : Byte) (s : State) :
    (branch cond off s).cycles = s.cycles + BitVec.ofNat 64
      (if cond then 3 + (if crossed (s.pc + 2#16) (s.pc + 2#16 + sext16 off) then 1 else 0) else 2) := by
  cases cond <;> rfl

/-! `trapEntry`: three bytes pushed, B and I set, PC from the BRK vector as memory then reads. -/

theorem sp_sub_three (sp : Byte) : sp - 2#8 - 1#8 = sp - 3#8 := by
  rw [BitVec.sub_sub]; rfl

theorem sp_add_three (sp : Byte) : sp + 1#8 + 2#8 = sp + 3#8 := by
  rw [BitVec.add_assoc]; rfl

@[simp] theorem trapEntry_a (ret : Addr) (s : State) :
    (trapEntry ret s).a = s.a := by
  simp [trapEntry, read16_eq]
@[simp] theorem trapEntry_x (ret : Addr) (s : State) :
    (trapEntry ret s).x = s.x := by
  simp [trapEntry, read16_eq]
@[simp] theorem trapEntry_y (ret : Addr) (s : State) :
    (trapEntry ret s).y = s.y := by
  simp [trapEntry, read16_eq]
@[simp] theorem trapEntry_sp (ret : Addr) (s : State) :
    (trapEntry ret s).sp = s.sp - 3#8 := by
  simp [trapEntry, read16_eq, sp_sub_three]
theorem trapEntry_pc (ret : Addr) (s : State) :
    (trapEntry ret s).pc = wordOf ((trapEntry ret s).mem.read (Config.brkVector + 1#16).toNat)
      ((trapEntry ret s).mem.read Config.brkVector.toNat) := by
  simp [trapEntry, read16_eq]
@[simp] theorem trapEntry_p (ret : Addr) (s : State) :
    (trapEntry ret s).p = setFlag .I true (setFlag .B true s.p) := by
  simp [trapEntry, read16_eq]
@[simp] theorem trapEntry_cycles (ret : Addr) (s : State) :
    (trapEntry ret s).cycles = s.cycles := by
  simp [trapEntry, read16_eq]
@[simp] theorem trapEntry_mem (ret : Addr) (s : State) :
    (trapEntry ret s).mem = ((s.mem.write (stackAddr s.sp).toNat (hiByte ret)).write (stackAddr (s.sp - 1#8)).toNat (loByte ret)).write
      (stackAddr (s.sp - 2#8)).toNat (setFlag .B true s.p) := by
  simp [trapEntry, read16_eq]
@[simp] theorem trapEntry_bus (ret : Addr) (s : State) :
    (trapEntry ret s).bus = s.bus ++ [.write (stackAddr s.sp) (hiByte ret), .write (stackAddr (s.sp - 1#8)) (loByte ret),
      .write (stackAddr (s.sp - 2#8)) (setFlag .B true s.p), .read Config.brkVector, .read (Config.brkVector + 1#16)] := by
  simp [trapEntry, read16_eq]

/-! `trapReturn`: P and PC from the three bytes above SP. -/

@[simp] theorem trapReturn_a (s : State) :
    (trapReturn s).a = s.a := by
  simp [trapReturn, sp_add_two, sp_add_three]
@[simp] theorem trapReturn_x (s : State) :
    (trapReturn s).x = s.x := by
  simp [trapReturn, sp_add_two, sp_add_three]
@[simp] theorem trapReturn_y (s : State) :
    (trapReturn s).y = s.y := by
  simp [trapReturn, sp_add_two, sp_add_three]
@[simp] theorem trapReturn_sp (s : State) :
    (trapReturn s).sp = s.sp + 3#8 := by
  simp [trapReturn, sp_add_two, sp_add_three]
@[simp] theorem trapReturn_pc (s : State) :
    (trapReturn s).pc = wordOf (s.mem.read (stackAddr (s.sp + 3#8)).toNat) (s.mem.read (stackAddr (s.sp + 2#8)).toNat) := by
  simp [trapReturn, sp_add_two, sp_add_three]
@[simp] theorem trapReturn_p (s : State) :
    (trapReturn s).p = s.mem.read (stackAddr (s.sp + 1#8)).toNat := by
  simp [trapReturn, sp_add_two, sp_add_three]
@[simp] theorem trapReturn_cycles (s : State) :
    (trapReturn s).cycles = s.cycles := by
  simp [trapReturn, sp_add_two, sp_add_three]
@[simp] theorem trapReturn_mem (s : State) :
    (trapReturn s).mem = s.mem := by
  simp [trapReturn, sp_add_two, sp_add_three]
@[simp] theorem trapReturn_bus (s : State) :
    (trapReturn s).bus = s.bus ++ [.read (stackAddr (s.sp + 1#8)), .read (stackAddr (s.sp + 2#8)),
      .read (stackAddr (s.sp + 3#8))] := by
  simp [trapReturn, sp_add_two, sp_add_three]

/-! The indirect jump, the return from a subroutine and the pulls: everything each does, under the reference BUS_READ. -/

@[simp] theorem jumpIndirect_eq (ptr : Addr) (s : State) :
    jumpIndirect ptr s = goto (read16page ptr s).val 5 (read16page ptr s).st := rfl

@[simp] theorem returnSub_eq (s : State) : returnSub s = goto ((pull16 s).val + 1#16) 6 (pull16 s).st := rfl

@[simp] theorem pullA_eq (s : State) :
    pullA s = finish 1 4 (((pull s).st.setA (pull s).val).setP (setZN (pull s).val s.p)) := rfl

@[simp] theorem pullP_eq (s : State) : pullP s = finish 1 4 ((pull s).st.setP (pull s).val) := rfl

/-! `resetTransaction`: SP, PC and its own two reads. -/

@[simp] theorem resetTransaction_a (s : State) : (resetTransaction s).a = s.a := rfl
@[simp] theorem resetTransaction_x (s : State) : (resetTransaction s).x = s.x := rfl
@[simp] theorem resetTransaction_y (s : State) : (resetTransaction s).y = s.y := rfl
@[simp] theorem resetTransaction_p (s : State) : (resetTransaction s).p = s.p := rfl
@[simp] theorem resetTransaction_cycles (s : State) : (resetTransaction s).cycles = s.cycles := rfl
@[simp] theorem resetTransaction_mem (s : State) : (resetTransaction s).mem = s.mem := rfl

end Sys2Proof.Machine
end

