-- ==== Sys2Proof/Laws/PerInstr.lean ====
section
/-! SUPPORT. A fact about each instruction as syntax, one lemma a constructor: family `Encoding`. -/

namespace Sys2Proof.Laws.Encoding

/-- Where a page crossing costs a cycle (R312): a read-class instruction in an indexed absolute or (zp),Y mode, and a taken branch. -/
def pageCrossRule (i : Instr) : PageCross :=
  if i.mode = .rel then .branch
  else if i.mode ∈ [.absx, .absy, .indy] ∧
    i.mnemonic ∈ [.ADC, .SBC, .AND, .ORA, .EOR, .CMP, .LDA, .LDX, .LDY] then .read
  else .none

/-- The instruction is well formed (its mnemonic has its mode), its encoding has the length of its mode (R302), the dispatch
table has a row for it (R311), and the row's page-cross class is the rule's. -/
def Statement (i : Instr) : Prop :=
  i.wf = true ∧ (encode i).length = i.length ∧ ∃ row, i.row = some row ∧ row.pageCross = pageCrossRule i

/-- A row found gives the instruction's page-cross class. -/
theorem pageCross_eq {i : Instr} (h : Statement i) : i.pageCross = pageCrossRule i := by
  obtain ⟨-, -, row, h1, h2⟩ := h
  simp [Instr.pageCross, h1, h2]

theorem adcImm (v : Byte) : Statement (.adcImm v) := ⟨rfl, rfl, _, rfl, rfl⟩
theorem adcZp (z : Byte) : Statement (.adcZp z) := ⟨rfl, rfl, _, rfl, rfl⟩
theorem adcZpx (z : Byte) : Statement (.adcZpx z) := ⟨rfl, rfl, _, rfl, rfl⟩
theorem adcAbs (a : Addr) : Statement (.adcAbs a) := ⟨rfl, rfl, _, rfl, rfl⟩
theorem adcAbsx (a : Addr) : Statement (.adcAbsx a) := ⟨rfl, rfl, _, rfl, rfl⟩
theorem adcAbsy (a : Addr) : Statement (.adcAbsy a) := ⟨rfl, rfl, _, rfl, rfl⟩
theorem adcIndx (z : Byte) : Statement (.adcIndx z) := ⟨rfl, rfl, _, rfl, rfl⟩
theorem adcIndy (z : Byte) : Statement (.adcIndy z) := ⟨rfl, rfl, _, rfl, rfl⟩
theorem sbcImm (v : Byte) : Statement (.sbcImm v) := ⟨rfl, rfl, _, rfl, rfl⟩
theorem sbcZp (z : Byte) : Statement (.sbcZp z) := ⟨rfl, rfl, _, rfl, rfl⟩
theorem sbcZpx (z : Byte) : Statement (.sbcZpx z) := ⟨rfl, rfl, _, rfl, rfl⟩
theorem sbcAbs (a : Addr) : Statement (.sbcAbs a) := ⟨rfl, rfl, _, rfl, rfl⟩
theorem sbcAbsx (a : Addr) : Statement (.sbcAbsx a) := ⟨rfl, rfl, _, rfl, rfl⟩
theorem sbcAbsy (a : Addr) : Statement (.sbcAbsy a) := ⟨rfl, rfl, _, rfl, rfl⟩
theorem sbcIndx (z : Byte) : Statement (.sbcIndx z) := ⟨rfl, rfl, _, rfl, rfl⟩
theorem sbcIndy (z : Byte) : Statement (.sbcIndy z) := ⟨rfl, rfl, _, rfl, rfl⟩
theorem andImm (v : Byte) : Statement (.andImm v) := ⟨rfl, rfl, _, rfl, rfl⟩
theorem andZp (z : Byte) : Statement (.andZp z) := ⟨rfl, rfl, _, rfl, rfl⟩
theorem andZpx (z : Byte) : Statement (.andZpx z) := ⟨rfl, rfl, _, rfl, rfl⟩
theorem andAbs (a : Addr) : Statement (.andAbs a) := ⟨rfl, rfl, _, rfl, rfl⟩
theorem andAbsx (a : Addr) : Statement (.andAbsx a) := ⟨rfl, rfl, _, rfl, rfl⟩
theorem andAbsy (a : Addr) : Statement (.andAbsy a) := ⟨rfl, rfl, _, rfl, rfl⟩
theorem andIndx (z : Byte) : Statement (.andIndx z) := ⟨rfl, rfl, _, rfl, rfl⟩
theorem andIndy (z : Byte) : Statement (.andIndy z) := ⟨rfl, rfl, _, rfl, rfl⟩
theorem oraImm (v : Byte) : Statement (.oraImm v) := ⟨rfl, rfl, _, rfl, rfl⟩
theorem oraZp (z : Byte) : Statement (.oraZp z) := ⟨rfl, rfl, _, rfl, rfl⟩
theorem oraZpx (z : Byte) : Statement (.oraZpx z) := ⟨rfl, rfl, _, rfl, rfl⟩
theorem oraAbs (a : Addr) : Statement (.oraAbs a) := ⟨rfl, rfl, _, rfl, rfl⟩
theorem oraAbsx (a : Addr) : Statement (.oraAbsx a) := ⟨rfl, rfl, _, rfl, rfl⟩
theorem oraAbsy (a : Addr) : Statement (.oraAbsy a) := ⟨rfl, rfl, _, rfl, rfl⟩
theorem oraIndx (z : Byte) : Statement (.oraIndx z) := ⟨rfl, rfl, _, rfl, rfl⟩
theorem oraIndy (z : Byte) : Statement (.oraIndy z) := ⟨rfl, rfl, _, rfl, rfl⟩
theorem eorImm (v : Byte) : Statement (.eorImm v) := ⟨rfl, rfl, _, rfl, rfl⟩
theorem eorZp (z : Byte) : Statement (.eorZp z) := ⟨rfl, rfl, _, rfl, rfl⟩
theorem eorZpx (z : Byte) : Statement (.eorZpx z) := ⟨rfl, rfl, _, rfl, rfl⟩
theorem eorAbs (a : Addr) : Statement (.eorAbs a) := ⟨rfl, rfl, _, rfl, rfl⟩
theorem eorAbsx (a : Addr) : Statement (.eorAbsx a) := ⟨rfl, rfl, _, rfl, rfl⟩
theorem eorAbsy (a : Addr) : Statement (.eorAbsy a) := ⟨rfl, rfl, _, rfl, rfl⟩
theorem eorIndx (z : Byte) : Statement (.eorIndx z) := ⟨rfl, rfl, _, rfl, rfl⟩
theorem eorIndy (z : Byte) : Statement (.eorIndy z) := ⟨rfl, rfl, _, rfl, rfl⟩
theorem bitZp (z : Byte) : Statement (.bitZp z) := ⟨rfl, rfl, _, rfl, rfl⟩
theorem bitAbs (a : Addr) : Statement (.bitAbs a) := ⟨rfl, rfl, _, rfl, rfl⟩
theorem aslAcc : Statement (.aslAcc) := ⟨rfl, rfl, _, rfl, rfl⟩
theorem aslZp (z : Byte) : Statement (.aslZp z) := ⟨rfl, rfl, _, rfl, rfl⟩
theorem aslZpx (z : Byte) : Statement (.aslZpx z) := ⟨rfl, rfl, _, rfl, rfl⟩
theorem aslAbs (a : Addr) : Statement (.aslAbs a) := ⟨rfl, rfl, _, rfl, rfl⟩
theorem aslAbsx (a : Addr) : Statement (.aslAbsx a) := ⟨rfl, rfl, _, rfl, rfl⟩
theorem lsrAcc : Statement (.lsrAcc) := ⟨rfl, rfl, _, rfl, rfl⟩
theorem lsrZp (z : Byte) : Statement (.lsrZp z) := ⟨rfl, rfl, _, rfl, rfl⟩
theorem lsrZpx (z : Byte) : Statement (.lsrZpx z) := ⟨rfl, rfl, _, rfl, rfl⟩
theorem lsrAbs (a : Addr) : Statement (.lsrAbs a) := ⟨rfl, rfl, _, rfl, rfl⟩
theorem lsrAbsx (a : Addr) : Statement (.lsrAbsx a) := ⟨rfl, rfl, _, rfl, rfl⟩
theorem rolAcc : Statement (.rolAcc) := ⟨rfl, rfl, _, rfl, rfl⟩
theorem rolZp (z : Byte) : Statement (.rolZp z) := ⟨rfl, rfl, _, rfl, rfl⟩
theorem rolZpx (z : Byte) : Statement (.rolZpx z) := ⟨rfl, rfl, _, rfl, rfl⟩
theorem rolAbs (a : Addr) : Statement (.rolAbs a) := ⟨rfl, rfl, _, rfl, rfl⟩
theorem rolAbsx (a : Addr) : Statement (.rolAbsx a) := ⟨rfl, rfl, _, rfl, rfl⟩
theorem rorAcc : Statement (.rorAcc) := ⟨rfl, rfl, _, rfl, rfl⟩
theorem rorZp (z : Byte) : Statement (.rorZp z) := ⟨rfl, rfl, _, rfl, rfl⟩
theorem rorZpx (z : Byte) : Statement (.rorZpx z) := ⟨rfl, rfl, _, rfl, rfl⟩
theorem rorAbs (a : Addr) : Statement (.rorAbs a) := ⟨rfl, rfl, _, rfl, rfl⟩
theorem rorAbsx (a : Addr) : Statement (.rorAbsx a) := ⟨rfl, rfl, _, rfl, rfl⟩
theorem incZp (z : Byte) : Statement (.incZp z) := ⟨rfl, rfl, _, rfl, rfl⟩
theorem incZpx (z : Byte) : Statement (.incZpx z) := ⟨rfl, rfl, _, rfl, rfl⟩
theorem incAbs (a : Addr) : Statement (.incAbs a) := ⟨rfl, rfl, _, rfl, rfl⟩
theorem incAbsx (a : Addr) : Statement (.incAbsx a) := ⟨rfl, rfl, _, rfl, rfl⟩
theorem decZp (z : Byte) : Statement (.decZp z) := ⟨rfl, rfl, _, rfl, rfl⟩
theorem decZpx (z : Byte) : Statement (.decZpx z) := ⟨rfl, rfl, _, rfl, rfl⟩
theorem decAbs (a : Addr) : Statement (.decAbs a) := ⟨rfl, rfl, _, rfl, rfl⟩
theorem decAbsx (a : Addr) : Statement (.decAbsx a) := ⟨rfl, rfl, _, rfl, rfl⟩
theorem inx : Statement (.inx) := ⟨rfl, rfl, _, rfl, rfl⟩
theorem iny : Statement (.iny) := ⟨rfl, rfl, _, rfl, rfl⟩
theorem dex : Statement (.dex) := ⟨rfl, rfl, _, rfl, rfl⟩
theorem dey : Statement (.dey) := ⟨rfl, rfl, _, rfl, rfl⟩
theorem cmpImm (v : Byte) : Statement (.cmpImm v) := ⟨rfl, rfl, _, rfl, rfl⟩
theorem cmpZp (z : Byte) : Statement (.cmpZp z) := ⟨rfl, rfl, _, rfl, rfl⟩
theorem cmpZpx (z : Byte) : Statement (.cmpZpx z) := ⟨rfl, rfl, _, rfl, rfl⟩
theorem cmpAbs (a : Addr) : Statement (.cmpAbs a) := ⟨rfl, rfl, _, rfl, rfl⟩
theorem cmpAbsx (a : Addr) : Statement (.cmpAbsx a) := ⟨rfl, rfl, _, rfl, rfl⟩
theorem cmpAbsy (a : Addr) : Statement (.cmpAbsy a) := ⟨rfl, rfl, _, rfl, rfl⟩
theorem cmpIndx (z : Byte) : Statement (.cmpIndx z) := ⟨rfl, rfl, _, rfl, rfl⟩
theorem cmpIndy (z : Byte) : Statement (.cmpIndy z) := ⟨rfl, rfl, _, rfl, rfl⟩
theorem cpxImm (v : Byte) : Statement (.cpxImm v) := ⟨rfl, rfl, _, rfl, rfl⟩
theorem cpxZp (z : Byte) : Statement (.cpxZp z) := ⟨rfl, rfl, _, rfl, rfl⟩
theorem cpxAbs (a : Addr) : Statement (.cpxAbs a) := ⟨rfl, rfl, _, rfl, rfl⟩
theorem cpyImm (v : Byte) : Statement (.cpyImm v) := ⟨rfl, rfl, _, rfl, rfl⟩
theorem cpyZp (z : Byte) : Statement (.cpyZp z) := ⟨rfl, rfl, _, rfl, rfl⟩
theorem cpyAbs (a : Addr) : Statement (.cpyAbs a) := ⟨rfl, rfl, _, rfl, rfl⟩
theorem bcc (off : Byte) : Statement (.bcc off) := ⟨rfl, rfl, _, rfl, rfl⟩
theorem bcs (off : Byte) : Statement (.bcs off) := ⟨rfl, rfl, _, rfl, rfl⟩
theorem beq (off : Byte) : Statement (.beq off) := ⟨rfl, rfl, _, rfl, rfl⟩
theorem bne (off : Byte) : Statement (.bne off) := ⟨rfl, rfl, _, rfl, rfl⟩
theorem bmi (off : Byte) : Statement (.bmi off) := ⟨rfl, rfl, _, rfl, rfl⟩
theorem bpl (off : Byte) : Statement (.bpl off) := ⟨rfl, rfl, _, rfl, rfl⟩
theorem bvc (off : Byte) : Statement (.bvc off) := ⟨rfl, rfl, _, rfl, rfl⟩
theorem bvs (off : Byte) : Statement (.bvs off) := ⟨rfl, rfl, _, rfl, rfl⟩
theorem jmpAbs (a : Addr) : Statement (.jmpAbs a) := ⟨rfl, rfl, _, rfl, rfl⟩
theorem jmpInd (a : Addr) : Statement (.jmpInd a) := ⟨rfl, rfl, _, rfl, rfl⟩
theorem jsr (a : Addr) : Statement (.jsr a) := ⟨rfl, rfl, _, rfl, rfl⟩
theorem rts : Statement (.rts) := ⟨rfl, rfl, _, rfl, rfl⟩
theorem brk : Statement (.brk) := ⟨rfl, rfl, _, rfl, rfl⟩
theorem rti : Statement (.rti) := ⟨rfl, rfl, _, rfl, rfl⟩
theorem pha : Statement (.pha) := ⟨rfl, rfl, _, rfl, rfl⟩
theorem php : Statement (.php) := ⟨rfl, rfl, _, rfl, rfl⟩
theorem pla : Statement (.pla) := ⟨rfl, rfl, _, rfl, rfl⟩
theorem plp : Statement (.plp) := ⟨rfl, rfl, _, rfl, rfl⟩
theorem tax : Statement (.tax) := ⟨rfl, rfl, _, rfl, rfl⟩
theorem tay : Statement (.tay) := ⟨rfl, rfl, _, rfl, rfl⟩
theorem txa : Statement (.txa) := ⟨rfl, rfl, _, rfl, rfl⟩
theorem tya : Statement (.tya) := ⟨rfl, rfl, _, rfl, rfl⟩
theorem tsx : Statement (.tsx) := ⟨rfl, rfl, _, rfl, rfl⟩
theorem txs : Statement (.txs) := ⟨rfl, rfl, _, rfl, rfl⟩
theorem clc : Statement (.clc) := ⟨rfl, rfl, _, rfl, rfl⟩
theorem sec : Statement (.sec) := ⟨rfl, rfl, _, rfl, rfl⟩
theorem cld : Statement (.cld) := ⟨rfl, rfl, _, rfl, rfl⟩
theorem sed : Statement (.sed) := ⟨rfl, rfl, _, rfl, rfl⟩
theorem cli : Statement (.cli) := ⟨rfl, rfl, _, rfl, rfl⟩
theorem sei : Statement (.sei) := ⟨rfl, rfl, _, rfl, rfl⟩
theorem clv : Statement (.clv) := ⟨rfl, rfl, _, rfl, rfl⟩
theorem nop : Statement (.nop) := ⟨rfl, rfl, _, rfl, rfl⟩
theorem ldaImm (v : Byte) : Statement (.ldaImm v) := ⟨rfl, rfl, _, rfl, rfl⟩
theorem ldaZp (z : Byte) : Statement (.ldaZp z) := ⟨rfl, rfl, _, rfl, rfl⟩
theorem ldaZpx (z : Byte) : Statement (.ldaZpx z) := ⟨rfl, rfl, _, rfl, rfl⟩
theorem ldaAbs (a : Addr) : Statement (.ldaAbs a) := ⟨rfl, rfl, _, rfl, rfl⟩
theorem ldaAbsx (a : Addr) : Statement (.ldaAbsx a) := ⟨rfl, rfl, _, rfl, rfl⟩
theorem ldaAbsy (a : Addr) : Statement (.ldaAbsy a) := ⟨rfl, rfl, _, rfl, rfl⟩
theorem ldaIndx (z : Byte) : Statement (.ldaIndx z) := ⟨rfl, rfl, _, rfl, rfl⟩
theorem ldaIndy (z : Byte) : Statement (.ldaIndy z) := ⟨rfl, rfl, _, rfl, rfl⟩
theorem ldxImm (v : Byte) : Statement (.ldxImm v) := ⟨rfl, rfl, _, rfl, rfl⟩
theorem ldxZp (z : Byte) : Statement (.ldxZp z) := ⟨rfl, rfl, _, rfl, rfl⟩
theorem ldxZpy (z : Byte) : Statement (.ldxZpy z) := ⟨rfl, rfl, _, rfl, rfl⟩
theorem ldxAbs (a : Addr) : Statement (.ldxAbs a) := ⟨rfl, rfl, _, rfl, rfl⟩
theorem ldxAbsy (a : Addr) : Statement (.ldxAbsy a) := ⟨rfl, rfl, _, rfl, rfl⟩
theorem ldyImm (v : Byte) : Statement (.ldyImm v) := ⟨rfl, rfl, _, rfl, rfl⟩
theorem ldyZp (z : Byte) : Statement (.ldyZp z) := ⟨rfl, rfl, _, rfl, rfl⟩
theorem ldyZpx (z : Byte) : Statement (.ldyZpx z) := ⟨rfl, rfl, _, rfl, rfl⟩
theorem ldyAbs (a : Addr) : Statement (.ldyAbs a) := ⟨rfl, rfl, _, rfl, rfl⟩
theorem ldyAbsx (a : Addr) : Statement (.ldyAbsx a) := ⟨rfl, rfl, _, rfl, rfl⟩
theorem staZp (z : Byte) : Statement (.staZp z) := ⟨rfl, rfl, _, rfl, rfl⟩
theorem staZpx (z : Byte) : Statement (.staZpx z) := ⟨rfl, rfl, _, rfl, rfl⟩
theorem staAbs (a : Addr) : Statement (.staAbs a) := ⟨rfl, rfl, _, rfl, rfl⟩
theorem staAbsx (a : Addr) : Statement (.staAbsx a) := ⟨rfl, rfl, _, rfl, rfl⟩
theorem staAbsy (a : Addr) : Statement (.staAbsy a) := ⟨rfl, rfl, _, rfl, rfl⟩
theorem staIndx (z : Byte) : Statement (.staIndx z) := ⟨rfl, rfl, _, rfl, rfl⟩
theorem staIndy (z : Byte) : Statement (.staIndy z) := ⟨rfl, rfl, _, rfl, rfl⟩
theorem stxZp (z : Byte) : Statement (.stxZp z) := ⟨rfl, rfl, _, rfl, rfl⟩
theorem stxZpy (z : Byte) : Statement (.stxZpy z) := ⟨rfl, rfl, _, rfl, rfl⟩
theorem stxAbs (a : Addr) : Statement (.stxAbs a) := ⟨rfl, rfl, _, rfl, rfl⟩
theorem styZp (z : Byte) : Statement (.styZp z) := ⟨rfl, rfl, _, rfl, rfl⟩
theorem styZpx (z : Byte) : Statement (.styZpx z) := ⟨rfl, rfl, _, rfl, rfl⟩
theorem styAbs (a : Addr) : Statement (.styAbs a) := ⟨rfl, rfl, _, rfl, rfl⟩

end Sys2Proof.Laws.Encoding
end

