-- ==== Sys2Proof/Tests/Slice0.lean ====
section
/-! SUPPORT. The model's own tests. Expected results come from the spec: the opcode table (spec/opcode_table.json), the test
vectors V<n>, B<n> and RV<n> (spec/95_test_vectors.md) and the rules named. A theorem `witness_<Obligation>` shows a concrete
state and operands that meet every hypothesis of that obligation together. -/

namespace Sys2Proof.Tests
open Sys2Proof Sys2Proof.Machine

/-! ## Helpers -/

/-- A state of the vectors: cycles 0, every byte not listed 0x00. -/
def start (pc a x y sp p : Nat) (cells : List (Nat × Nat)) : State :=
  { a := .ofNat 8 a, x := .ofNat 8 x, y := .ofNat 8 y, sp := .ofNat 8 sp, p := .ofNat 8 p, pc := .ofNat 16 pc, cycles := 0#64,
    mem := cells.foldl (fun m c => m.write c.1 (.ofNat 8 c.2)) [], bus := [] }

/-- A, X, Y, SP, P, PC and cycles after a step; nothing if it is no next state. -/
def regsAfter (r : Result) : List Nat :=
  match r with
  | .next t => [t.a.toNat, t.x.toNat, t.y.toNat, t.sp.toNat, t.p.toNat, t.pc.toNat, t.cycles.toNat]
  | _ => []

/-- The memory writes of a step, in order. -/
def writesAfter (r : Result) : List (Nat × Nat) :=
  match r with
  | .next t => t.bus.filterMap fun e => match e with
    | .write a v => some (a.toNat, v.toNat)
    | .read _ => none
  | _ => []

/-- Every access of a step, in order. -/
def busAfter (r : Result) : List Access :=
  match r with
  | .next t => t.bus
  | _ => []

/-- The opcode byte of a fault. -/
def faultByte (r : Result) : Option Nat :=
  match r with
  | .fault (.unknownOpcode op) => some op.toNat
  | _ => none

/-- The instruction that bytes decode to, where no byte is left. -/
def decoded (bs : List Byte) : Option Instr :=
  match decode bs with
  | .ok (i, []) => some i
  | _ => none

/-! ## Decoding: every opcode's word, written out from the opcode table; operand bytes are 34 and then 12. -/

theorem test_decode_row_0x :
    [[0x00#8], [0x01#8, 0x34#8], [0x05#8, 0x34#8], [0x06#8, 0x34#8], [0x08#8], [0x09#8, 0x34#8], [0x0A#8],
     [0x0D#8, 0x34#8, 0x12#8], [0x0E#8, 0x34#8, 0x12#8]].map decoded =
    [some .brk, some (.oraIndx 0x34#8), some (.oraZp 0x34#8), some (.aslZp 0x34#8), some .php, some (.oraImm 0x34#8),
     some .aslAcc, some (.oraAbs 0x1234#16), some (.aslAbs 0x1234#16)] := by decide

theorem test_decode_row_1x :
    [[0x10#8, 0x34#8], [0x11#8, 0x34#8], [0x15#8, 0x34#8], [0x16#8, 0x34#8], [0x18#8], [0x19#8, 0x34#8, 0x12#8],
     [0x1D#8, 0x34#8, 0x12#8], [0x1E#8, 0x34#8, 0x12#8]].map decoded =
    [some (.bpl 0x34#8), some (.oraIndy 0x34#8), some (.oraZpx 0x34#8), some (.aslZpx 0x34#8), some .clc,
     some (.oraAbsy 0x1234#16), some (.oraAbsx 0x1234#16), some (.aslAbsx 0x1234#16)] := by decide

theorem test_decode_row_2x :
    [[0x20#8, 0x34#8, 0x12#8], [0x21#8, 0x34#8], [0x24#8, 0x34#8], [0x25#8, 0x34#8], [0x26#8, 0x34#8], [0x28#8],
     [0x29#8, 0x34#8], [0x2A#8], [0x2C#8, 0x34#8, 0x12#8], [0x2D#8, 0x34#8, 0x12#8], [0x2E#8, 0x34#8, 0x12#8]].map decoded =
    [some (.jsr 0x1234#16), some (.andIndx 0x34#8), some (.bitZp 0x34#8), some (.andZp 0x34#8), some (.rolZp 0x34#8),
     some .plp, some (.andImm 0x34#8), some .rolAcc, some (.bitAbs 0x1234#16), some (.andAbs 0x1234#16),
     some (.rolAbs 0x1234#16)] := by decide

theorem test_decode_row_3x :
    [[0x30#8, 0x34#8], [0x31#8, 0x34#8], [0x35#8, 0x34#8], [0x36#8, 0x34#8], [0x38#8], [0x39#8, 0x34#8, 0x12#8],
     [0x3D#8, 0x34#8, 0x12#8], [0x3E#8, 0x34#8, 0x12#8]].map decoded =
    [some (.bmi 0x34#8), some (.andIndy 0x34#8), some (.andZpx 0x34#8), some (.rolZpx 0x34#8), some .sec,
     some (.andAbsy 0x1234#16), some (.andAbsx 0x1234#16), some (.rolAbsx 0x1234#16)] := by decide

theorem test_decode_row_4x :
    [[0x40#8], [0x41#8, 0x34#8], [0x45#8, 0x34#8], [0x46#8, 0x34#8], [0x48#8], [0x49#8, 0x34#8], [0x4A#8],
     [0x4C#8, 0x34#8, 0x12#8], [0x4D#8, 0x34#8, 0x12#8], [0x4E#8, 0x34#8, 0x12#8]].map decoded =
    [some .rti, some (.eorIndx 0x34#8), some (.eorZp 0x34#8), some (.lsrZp 0x34#8), some .pha, some (.eorImm 0x34#8),
     some .lsrAcc, some (.jmpAbs 0x1234#16), some (.eorAbs 0x1234#16), some (.lsrAbs 0x1234#16)] := by decide

theorem test_decode_row_5x :
    [[0x50#8, 0x34#8], [0x51#8, 0x34#8], [0x55#8, 0x34#8], [0x56#8, 0x34#8], [0x58#8], [0x59#8, 0x34#8, 0x12#8],
     [0x5D#8, 0x34#8, 0x12#8], [0x5E#8, 0x34#8, 0x12#8]].map decoded =
    [some (.bvc 0x34#8), some (.eorIndy 0x34#8), some (.eorZpx 0x34#8), some (.lsrZpx 0x34#8), some .cli,
     some (.eorAbsy 0x1234#16), some (.eorAbsx 0x1234#16), some (.lsrAbsx 0x1234#16)] := by decide

theorem test_decode_row_6x :
    [[0x60#8], [0x61#8, 0x34#8], [0x65#8, 0x34#8], [0x66#8, 0x34#8], [0x68#8], [0x69#8, 0x34#8], [0x6A#8],
     [0x6C#8, 0x34#8, 0x12#8], [0x6D#8, 0x34#8, 0x12#8], [0x6E#8, 0x34#8, 0x12#8]].map decoded =
    [some .rts, some (.adcIndx 0x34#8), some (.adcZp 0x34#8), some (.rorZp 0x34#8), some .pla, some (.adcImm 0x34#8),
     some .rorAcc, some (.jmpInd 0x1234#16), some (.adcAbs 0x1234#16), some (.rorAbs 0x1234#16)] := by decide

theorem test_decode_row_7x :
    [[0x70#8, 0x34#8], [0x71#8, 0x34#8], [0x75#8, 0x34#8], [0x76#8, 0x34#8], [0x78#8], [0x79#8, 0x34#8, 0x12#8],
     [0x7D#8, 0x34#8, 0x12#8], [0x7E#8, 0x34#8, 0x12#8]].map decoded =
    [some (.bvs 0x34#8), some (.adcIndy 0x34#8), some (.adcZpx 0x34#8), some (.rorZpx 0x34#8), some .sei,
     some (.adcAbsy 0x1234#16), some (.adcAbsx 0x1234#16), some (.rorAbsx 0x1234#16)] := by decide

theorem test_decode_row_8x :
    [[0x81#8, 0x34#8], [0x84#8, 0x34#8], [0x85#8, 0x34#8], [0x86#8, 0x34#8], [0x88#8], [0x8A#8], [0x8C#8, 0x34#8, 0x12#8],
     [0x8D#8, 0x34#8, 0x12#8], [0x8E#8, 0x34#8, 0x12#8]].map decoded =
    [some (.staIndx 0x34#8), some (.styZp 0x34#8), some (.staZp 0x34#8), some (.stxZp 0x34#8), some .dey, some .txa,
     some (.styAbs 0x1234#16), some (.staAbs 0x1234#16), some (.stxAbs 0x1234#16)] := by decide

theorem test_decode_row_9x :
    [[0x90#8, 0x34#8], [0x91#8, 0x34#8], [0x94#8, 0x34#8], [0x95#8, 0x34#8], [0x96#8, 0x34#8], [0x98#8],
     [0x99#8, 0x34#8, 0x12#8], [0x9A#8], [0x9D#8, 0x34#8, 0x12#8]].map decoded =
    [some (.bcc 0x34#8), some (.staIndy 0x34#8), some (.styZpx 0x34#8), some (.staZpx 0x34#8), some (.stxZpy 0x34#8),
     some .tya, some (.staAbsy 0x1234#16), some .txs, some (.staAbsx 0x1234#16)] := by decide

theorem test_decode_row_Ax :
    [[0xA0#8, 0x34#8], [0xA1#8, 0x34#8], [0xA2#8, 0x34#8], [0xA4#8, 0x34#8], [0xA5#8, 0x34#8], [0xA6#8, 0x34#8], [0xA8#8],
     [0xA9#8, 0x34#8], [0xAA#8], [0xAC#8, 0x34#8, 0x12#8], [0xAD#8, 0x34#8, 0x12#8], [0xAE#8, 0x34#8, 0x12#8]].map decoded =
    [some (.ldyImm 0x34#8), some (.ldaIndx 0x34#8), some (.ldxImm 0x34#8), some (.ldyZp 0x34#8), some (.ldaZp 0x34#8),
     some (.ldxZp 0x34#8), some .tay, some (.ldaImm 0x34#8), some .tax, some (.ldyAbs 0x1234#16), some (.ldaAbs 0x1234#16),
     some (.ldxAbs 0x1234#16)] := by decide

theorem test_decode_row_Bx :
    [[0xB0#8, 0x34#8], [0xB1#8, 0x34#8], [0xB4#8, 0x34#8], [0xB5#8, 0x34#8], [0xB6#8, 0x34#8], [0xB8#8],
     [0xB9#8, 0x34#8, 0x12#8], [0xBA#8], [0xBC#8, 0x34#8, 0x12#8], [0xBD#8, 0x34#8, 0x12#8], [0xBE#8, 0x34#8, 0x12#8]].map decoded =
    [some (.bcs 0x34#8), some (.ldaIndy 0x34#8), some (.ldyZpx 0x34#8), some (.ldaZpx 0x34#8), some (.ldxZpy 0x34#8),
     some .clv, some (.ldaAbsy 0x1234#16), some .tsx, some (.ldyAbsx 0x1234#16), some (.ldaAbsx 0x1234#16),
     some (.ldxAbsy 0x1234#16)] := by decide

theorem test_decode_row_Cx :
    [[0xC0#8, 0x34#8], [0xC1#8, 0x34#8], [0xC4#8, 0x34#8], [0xC5#8, 0x34#8], [0xC6#8, 0x34#8], [0xC8#8], [0xC9#8, 0x34#8],
     [0xCA#8], [0xCC#8, 0x34#8, 0x12#8], [0xCD#8, 0x34#8, 0x12#8], [0xCE#8, 0x34#8, 0x12#8]].map decoded =
    [some (.cpyImm 0x34#8), some (.cmpIndx 0x34#8), some (.cpyZp 0x34#8), some (.cmpZp 0x34#8), some (.decZp 0x34#8),
     some .iny, some (.cmpImm 0x34#8), some .dex, some (.cpyAbs 0x1234#16), some (.cmpAbs 0x1234#16),
     some (.decAbs 0x1234#16)] := by decide

theorem test_decode_row_Dx :
    [[0xD0#8, 0x34#8], [0xD1#8, 0x34#8], [0xD5#8, 0x34#8], [0xD6#8, 0x34#8], [0xD8#8], [0xD9#8, 0x34#8, 0x12#8],
     [0xDD#8, 0x34#8, 0x12#8], [0xDE#8, 0x34#8, 0x12#8]].map decoded =
    [some (.bne 0x34#8), some (.cmpIndy 0x34#8), some (.cmpZpx 0x34#8), some (.decZpx 0x34#8), some .cld,
     some (.cmpAbsy 0x1234#16), some (.cmpAbsx 0x1234#16), some (.decAbsx 0x1234#16)] := by decide

theorem test_decode_row_Ex :
    [[0xE0#8, 0x34#8], [0xE1#8, 0x34#8], [0xE4#8, 0x34#8], [0xE5#8, 0x34#8], [0xE6#8, 0x34#8], [0xE8#8], [0xE9#8, 0x34#8],
     [0xEA#8], [0xEC#8, 0x34#8, 0x12#8], [0xED#8, 0x34#8, 0x12#8], [0xEE#8, 0x34#8, 0x12#8]].map decoded =
    [some (.cpxImm 0x34#8), some (.sbcIndx 0x34#8), some (.cpxZp 0x34#8), some (.sbcZp 0x34#8), some (.incZp 0x34#8),
     some .inx, some (.sbcImm 0x34#8), some .nop, some (.cpxAbs 0x1234#16), some (.sbcAbs 0x1234#16),
     some (.incAbs 0x1234#16)] := by decide

theorem test_decode_row_Fx :
    [[0xF0#8, 0x34#8], [0xF1#8, 0x34#8], [0xF5#8, 0x34#8], [0xF6#8, 0x34#8], [0xF8#8], [0xF9#8, 0x34#8, 0x12#8],
     [0xFD#8, 0x34#8, 0x12#8], [0xFE#8, 0x34#8, 0x12#8]].map decoded =
    [some (.beq 0x34#8), some (.sbcIndy 0x34#8), some (.sbcZpx 0x34#8), some (.incZpx 0x34#8), some .sed,
     some (.sbcAbsy 0x1234#16), some (.sbcAbsx 0x1234#16), some (.incAbsx 0x1234#16)] := by decide

/-- One word of each format, bit by bit (R302, R310): ADC #v is 01101001 vvvvvvvv, ROR A is 01101010, JMP abs is 01001100
llllllll hhhhhhhh, BNE is 11010000 oooooooo. -/
theorem test_decode_bit_by_bit :
    [[0b01101001#8, 0b10000001#8], [0b01101010#8], [0b01001100#8, 0b00000001#8, 0b10000000#8], [0b11010000#8, 0b11111110#8]].map
      decoded = [some (.adcImm 0x81#8), some .rorAcc, some (.jmpAbs 0x8001#16), some (.bne 0xFE#8)] := by decide

/-- UNDEFINED, truncated and empty words are refused (R313). -/
theorem test_decode_refuses : [[0x02#8], [0xFF#8, 0x00#8, 0x00#8], [0x69#8], [0x4C#8, 0x00#8], []].map decoded =
    [none, none, none, none, none] := by decide

/-- The table's numbering: bits 7 to 0 are the opcode, 15 to 8 the first operand byte. -/
theorem test_decodeTableWord :
    [decodeTableWord 8 0xEA, decodeTableWord 16 0x5069, decodeTableWord 24 0x30FF6C, decodeTableWord 8 0x02] =
    [some .nop, some (.adcImm 0x50#8), some (.jmpInd 0x30FF#16), none] := by decide

/-! ## WellFormed: for each check a line it refuses, and a line all of them accept -/

/-- There is no STX abs,X (R310). -/
theorem test_wf_mode : Line.modeOk ⟨.STX, .absx, 0x1234, 0x0200⟩ = false ∧ Line.wf ⟨.STX, .absx, 0x1234, 0x0200⟩ = false := by
  decide

/-- An immediate operand has one byte (R340). -/
theorem test_wf_operand : Line.operandOk ⟨.LDA, .imm, 0x100, 0x0200⟩ = false ∧ Line.wf ⟨.LDA, .imm, 0x100, 0x0200⟩ = false := by
  decide

/-- A branch reaches 127 bytes past the next instruction and no further (R500). -/
theorem test_wf_reach : Line.reachOk ⟨.BEQ, .rel, 0x1082, 0x1000⟩ = false ∧ Line.wf ⟨.BEQ, .rel, 0x1082, 0x1000⟩ = false ∧
    Line.wf ⟨.BEQ, .rel, 0x1081, 0x1000⟩ = true ∧ Line.wf ⟨.BEQ, .rel, 0x0F82, 0x1000⟩ = true := by
  decide

/-- The examples of R340 that its table gives bytes for. -/
theorem test_assemble :
    [Line.assemble ⟨.INX, .imp, 0, 0x0200⟩, Line.assemble ⟨.ASL, .acc, 0, 0x0200⟩, Line.assemble ⟨.LDA, .imm, 0x10, 0x0200⟩,
     Line.assemble ⟨.LDX, .zpy, 0x10, 0x0200⟩, Line.assemble ⟨.BEQ, .rel, 0x1081, 0x1000⟩] =
    [some [0xE8#8], some [0x0A#8], some [0xA9#8, 0x10#8], some [0xB6#8, 0x10#8], some [0xF0#8, 0x7F#8]] := by decide

/-! ## One step: vectors V<n> -/

/-- V4 (R400): ADC #$80 : two negatives overflow. -/
theorem test_adc_v4 :
    let r := step (start 0x0200 0x80 0x00 0x00 0xFF 0x00 [(0x0200, 0x69), (0x0201, 0x80)])
    (regsAfter r, writesAfter r) = ([0x00, 0x00, 0x00, 0xFF, 0x43, 0x0202, 2], []) := by decide

/-- V10 (R400): ADC #$01 : decimal 99+01. -/
theorem test_adc_v10 :
    let r := step (start 0x0200 0x99 0x00 0x00 0xFF 0x08 [(0x0200, 0x69), (0x0201, 0x01)])
    (regsAfter r, writesAfter r) = ([0xA0, 0x00, 0x00, 0xFF, 0x88, 0x0202, 2], []) := by decide

/-- V15 (R401): SBC #$FF : 7F-FF overflow. -/
theorem test_sbc_v15 :
    let r := step (start 0x0200 0x7F 0x00 0x00 0xFF 0x01 [(0x0200, 0xE9), (0x0201, 0xFF)])
    (regsAfter r, writesAfter r) = ([0x80, 0x00, 0x00, 0xFF, 0xC0, 0x0202, 2], []) := by decide

/-- V16 (R401): SBC #$01 : decimal 10-01 corrected. -/
theorem test_sbc_v16 :
    let r := step (start 0x0200 0x10 0x00 0x00 0xFF 0x09 [(0x0200, 0xE9), (0x0201, 0x01)])
    (regsAfter r, writesAfter r) = ([0x09, 0x00, 0x00, 0xFF, 0x09, 0x0202, 2], []) := by decide

/-- V19 (R420): AND #$80 : negative, C V kept. -/
theorem test_and_v19 :
    let r := step (start 0x0200 0xFF 0x00 0x00 0xFF 0x41 [(0x0200, 0x29), (0x0201, 0x80)])
    (regsAfter r, writesAfter r) = ([0x80, 0x00, 0x00, 0xFF, 0xC1, 0x0202, 2], []) := by decide

/-- V21 (R421): ORA ($FF,X) : (zp,X) wraps in zp. -/
theorem test_ora_v21 :
    let r := step (start 0x0200 0x01 0x01 0x00 0xFF 0x00 [(0x0000, 0x34), (0x0001, 0x12), (0x0200, 0x01), (0x0201, 0xFF), (0x1234, 0x80)])
    (regsAfter r, writesAfter r) = ([0x81, 0x01, 0x00, 0xFF, 0x80, 0x0202, 6], []) := by decide

/-- V23 (R422): EOR #$FF : to negative. -/
theorem test_eor_v23 :
    let r := step (start 0x0200 0x7F 0x00 0x00 0xFF 0x00 [(0x0200, 0x49), (0x0201, 0xFF)])
    (regsAfter r, writesAfter r) = ([0x80, 0x00, 0x00, 0xFF, 0x80, 0x0202, 2], []) := by decide

/-- V24 (R423): BIT $10 : A=0: Z=1, N V from m. -/
theorem test_bit_v24 :
    let r := step (start 0x0200 0x00 0x00 0x00 0xFF 0x00 [(0x0010, 0xC0), (0x0200, 0x24), (0x0201, 0x10)])
    (regsAfter r, writesAfter r) = ([0x00, 0x00, 0x00, 0xFF, 0xC2, 0x0202, 3], []) := by decide

/-- V25 (R423): BIT $3000 : nonzero and. -/
theorem test_bit_v25 :
    let r := step (start 0x0200 0x01 0x00 0x00 0xFF 0x02 [(0x0200, 0x2C), (0x0202, 0x30), (0x3000, 0x41)])
    (regsAfter r, writesAfter r) = ([0x01, 0x00, 0x00, 0xFF, 0x40, 0x0203, 4], []) := by decide

/-- V26 (R440): ASL A : 0x80 to zero. -/
theorem test_asl_v26 :
    let r := step (start 0x0200 0x80 0x00 0x00 0xFF 0x00 [(0x0200, 0x0A)])
    (regsAfter r, writesAfter r) = ([0x00, 0x00, 0x00, 0xFF, 0x03, 0x0201, 2], []) := by decide

/-- V27 (R440): ASL $10 : memory zp. -/
theorem test_asl_v27 :
    let r := step (start 0x0200 0x00 0x00 0x00 0xFF 0x01 [(0x0010, 0x40), (0x0200, 0x06), (0x0201, 0x10)])
    (regsAfter r, writesAfter r) = ([0x00, 0x00, 0x00, 0xFF, 0x80, 0x0202, 5], [(0x0010, 0x80)]) := by decide

/-- V28 (R441): LSR A : 0x01 to zero. -/
theorem test_lsr_v28 :
    let r := step (start 0x0200 0x01 0x00 0x00 0xFF 0x80 [(0x0200, 0x4A)])
    (regsAfter r, writesAfter r) = ([0x00, 0x00, 0x00, 0xFF, 0x03, 0x0201, 2], []) := by decide

/-- V29 (R441): LSR $20FF,X : abs,X memory. -/
theorem test_lsr_v29 :
    let r := step (start 0x0200 0x00 0x01 0x00 0xFF 0x00 [(0x0200, 0x5E), (0x0201, 0xFF), (0x0202, 0x20), (0x2100, 0xFF)])
    (regsAfter r, writesAfter r) = ([0x00, 0x01, 0x00, 0xFF, 0x01, 0x0203, 7], [(0x2100, 0x7F)]) := by decide

/-- V30 (R442): ROL A : carry in and out. -/
theorem test_rol_v30 :
    let r := step (start 0x0200 0x81 0x00 0x00 0xFF 0x01 [(0x0200, 0x2A)])
    (regsAfter r, writesAfter r) = ([0x03, 0x00, 0x00, 0xFF, 0x01, 0x0201, 2], []) := by decide

/-- V32 (R443): ROR A : C in to bit 7, N cleared. -/
theorem test_ror_v32 :
    let r := step (start 0x0200 0x00 0x00 0x00 0xFF 0x01 [(0x0200, 0x6A)])
    (regsAfter r, writesAfter r) = ([0x80, 0x00, 0x00, 0xFF, 0x00, 0x0201, 2], []) := by decide

/-- V34 (R443): ROR $0F,X : memory zp,X 0x01 to zero. -/
theorem test_ror_v34 :
    let r := step (start 0x0200 0x00 0x01 0x00 0xFF 0x00 [(0x0010, 0x01), (0x0200, 0x76), (0x0201, 0x0F)])
    (regsAfter r, writesAfter r) = ([0x00, 0x01, 0x00, 0xFF, 0x03, 0x0202, 6], [(0x0010, 0x00)]) := by decide

/-- V35 (R460): INC $10 : FF wraps, C kept. -/
theorem test_inc_v35 :
    let r := step (start 0x0200 0x00 0x00 0x00 0xFF 0x01 [(0x0010, 0xFF), (0x0200, 0xE6), (0x0201, 0x10)])
    (regsAfter r, writesAfter r) = ([0x00, 0x00, 0x00, 0xFF, 0x03, 0x0202, 5], [(0x0010, 0x00)]) := by decide

/-- V36 (R460): INC $FF,X : zp,X wraps in page 0. -/
theorem test_inc_v36 :
    let r := step (start 0x0200 0x00 0x02 0x00 0xFF 0x00 [(0x0001, 0x7F), (0x0200, 0xF6), (0x0201, 0xFF)])
    (regsAfter r, writesAfter r) = ([0x00, 0x02, 0x00, 0xFF, 0x80, 0x0202, 6], [(0x0001, 0x80)]) := by decide

/-- V38 (R461): DEC $12FF,X : abs,X no penalty across page. -/
theorem test_dec_v38 :
    let r := step (start 0x0200 0x00 0x01 0x00 0xFF 0x00 [(0x0200, 0xDE), (0x0201, 0xFF), (0x0202, 0x12), (0x1300, 0x01)])
    (regsAfter r, writesAfter r) = ([0x00, 0x01, 0x00, 0xFF, 0x02, 0x0203, 7], [(0x1300, 0x00)]) := by decide

/-- V39 (R462): INX : FF to 00. -/
theorem test_inx_v39 :
    let r := step (start 0x0200 0x00 0xFF 0x00 0xFF 0x00 [(0x0200, 0xE8)])
    (regsAfter r, writesAfter r) = ([0x00, 0x00, 0x00, 0xFF, 0x02, 0x0201, 2], []) := by decide

/-- V40 (R463): INY : 7F to 80. -/
theorem test_iny_v40 :
    let r := step (start 0x0200 0x00 0x00 0x7F 0xFF 0x00 [(0x0200, 0xC8)])
    (regsAfter r, writesAfter r) = ([0x00, 0x00, 0x80, 0xFF, 0x80, 0x0201, 2], []) := by decide

/-- V41 (R464): DEX : 00 to FF. -/
theorem test_dex_v41 :
    let r := step (start 0x0200 0x00 0x00 0x00 0xFF 0x00 [(0x0200, 0xCA)])
    (regsAfter r, writesAfter r) = ([0x00, 0xFF, 0x00, 0xFF, 0x80, 0x0201, 2], []) := by decide

/-- V42 (R465): DEY : 01 to 00. -/
theorem test_dey_v42 :
    let r := step (start 0x0200 0x00 0x00 0x01 0xFF 0x00 [(0x0200, 0x88)])
    (regsAfter r, writesAfter r) = ([0x00, 0x00, 0x00, 0xFF, 0x02, 0x0201, 2], []) := by decide

/-- V45 (R480): CMP #$00 : 80 vs 00 (N not signed). -/
theorem test_cmp_v45 :
    let r := step (start 0x0200 0x80 0x00 0x00 0xFF 0x00 [(0x0200, 0xC9)])
    (regsAfter r, writesAfter r) = ([0x80, 0x00, 0x00, 0xFF, 0x81, 0x0202, 2], []) := by decide

/-- V47 (R480): CMP $20FF,Y : abs,Y page cross. -/
theorem test_cmp_v47 :
    let r := step (start 0x0200 0x05 0x00 0x01 0xFF 0x00 [(0x0200, 0xD9), (0x0201, 0xFF), (0x0202, 0x20), (0x2100, 0x05)])
    (regsAfter r, writesAfter r) = ([0x05, 0x00, 0x01, 0xFF, 0x03, 0x0203, 5], []) := by decide

/-- V49 (R481): CPX $10 : less. -/
theorem test_cpx_v49 :
    let r := step (start 0x0200 0x00 0x10 0x00 0xFF 0x00 [(0x0010, 0x20), (0x0200, 0xE4), (0x0201, 0x10)])
    (regsAfter r, writesAfter r) = ([0x00, 0x10, 0x00, 0xFF, 0x80, 0x0202, 3], []) := by decide

/-- V50 (R482): CPY #$00 : FF vs 00. -/
theorem test_cpy_v50 :
    let r := step (start 0x0200 0x00 0x00 0xFF 0xFF 0x00 [(0x0200, 0xC0)])
    (regsAfter r, writesAfter r) = ([0x00, 0x00, 0xFF, 0xFF, 0x81, 0x0202, 2], []) := by decide

/-- V52 (R503): BEQ $1081 : source scenario. -/
theorem test_beq_v52 :
    let r := step (start 0x1000 0x00 0x00 0x00 0xFF 0x02 [(0x1000, 0xF0), (0x1001, 0x7F)])
    (regsAfter r, writesAfter r) = ([0x00, 0x00, 0x00, 0xFF, 0x02, 0x1081, 3], []) := by decide

/-- V53 (R503): BEQ $1081 : not taken. -/
theorem test_beq_v53 :
    let r := step (start 0x1000 0x00 0x00 0x00 0xFF 0x00 [(0x1000, 0xF0), (0x1001, 0x7F)])
    (regsAfter r, writesAfter r) = ([0x00, 0x00, 0x00, 0xFF, 0x00, 0x1002, 2], []) := by decide

/-- V54 (R504): BNE $0FFE : taken backward, page cross. -/
theorem test_bne_v54 :
    let r := step (start 0x1000 0x00 0x00 0x00 0xFF 0x00 [(0x1000, 0xD0), (0x1001, 0xFC)])
    (regsAfter r, writesAfter r) = ([0x00, 0x00, 0x00, 0xFF, 0x00, 0x0FFE, 4], []) := by decide

/-- V55 (R504): BNE $1000 : off=FE self loop. -/
theorem test_bne_v55 :
    let r := step (start 0x1000 0x00 0x00 0x00 0xFF 0x00 [(0x1000, 0xD0), (0x1001, 0xFE)])
    (regsAfter r, writesAfter r) = ([0x00, 0x00, 0x00, 0xFF, 0x00, 0x1000, 3], []) := by decide

/-- V56 (R501): BCC $1102 : taken forward cross. -/
theorem test_bcc_v56 :
    let r := step (start 0x10F0 0x00 0x00 0x00 0xFF 0x00 [(0x10F0, 0x90), (0x10F1, 0x10)])
    (regsAfter r, writesAfter r) = ([0x00, 0x00, 0x00, 0xFF, 0x00, 0x1102, 4], []) := by decide

/-- V62 (R501): BCC $0002 : wrap past FFFF. -/
theorem test_bcc_v62 :
    let r := step (start 0xFFF0 0x00 0x00 0x00 0xFF 0x00 [(0xFFF0, 0x90), (0xFFF1, 0x10)])
    (regsAfter r, writesAfter r) = ([0x00, 0x00, 0x00, 0xFF, 0x00, 0x0002, 4], []) := by decide

/-- V57 (R502): BCS $1002 : taken off=00. -/
theorem test_bcs_v57 :
    let r := step (start 0x1000 0x00 0x00 0x00 0xFF 0x01 [(0x1000, 0xB0)])
    (regsAfter r, writesAfter r) = ([0x00, 0x00, 0x00, 0xFF, 0x01, 0x1002, 3], []) := by decide

/-- V58 (R505): BMI $1012 : not taken. -/
theorem test_bmi_v58 :
    let r := step (start 0x1000 0x00 0x00 0x00 0xFF 0x00 [(0x1000, 0x30), (0x1001, 0x10)])
    (regsAfter r, writesAfter r) = ([0x00, 0x00, 0x00, 0xFF, 0x00, 0x1002, 2], []) := by decide

/-- V59 (R506): BPL $0F82 : taken off=80. -/
theorem test_bpl_v59 :
    let r := step (start 0x1000 0x00 0x00 0x00 0xFF 0x00 [(0x1000, 0x10), (0x1001, 0x80)])
    (regsAfter r, writesAfter r) = ([0x00, 0x00, 0x00, 0xFF, 0x00, 0x0F82, 4], []) := by decide

/-- V60 (R507): BVC $1004 : taken. -/
theorem test_bvc_v60 :
    let r := step (start 0x1000 0x00 0x00 0x00 0xFF 0x00 [(0x1000, 0x50), (0x1001, 0x02)])
    (regsAfter r, writesAfter r) = ([0x00, 0x00, 0x00, 0xFF, 0x00, 0x1004, 3], []) := by decide

/-- V61 (R508): BVS $1004 : taken. -/
theorem test_bvs_v61 :
    let r := step (start 0x1000 0x00 0x00 0x00 0xFF 0x40 [(0x1000, 0x70), (0x1001, 0x02)])
    (regsAfter r, writesAfter r) = ([0x00, 0x00, 0x00, 0xFF, 0x40, 0x1004, 3], []) := by decide

/-- V63 (R520): JMP $C000 : absolute. -/
theorem test_jmp_v63 :
    let r := step (start 0x0200 0x00 0x00 0x00 0xFF 0x00 [(0x0200, 0x4C), (0x0202, 0xC0)])
    (regsAfter r, writesAfter r) = ([0x00, 0x00, 0x00, 0xFF, 0x00, 0xC000, 3], []) := by decide

/-- V64 (R521): JMP ($30FF) : indirect page-wrap bug. -/
theorem test_jmp_v64 :
    let r := step (start 0x0200 0x00 0x00 0x00 0xFF 0x00 [(0x0200, 0x6C), (0x0201, 0xFF), (0x0202, 0x30), (0x3000, 0x06), (0x3100, 0x07)])
    (regsAfter r, writesAfter r) = ([0x00, 0x00, 0x00, 0xFF, 0x00, 0x0600, 5], []) := by decide

/-- V66 (R522): JSR $0310 : push PC+2. -/
theorem test_jsr_v66 :
    let r := step (start 0x0302 0x00 0x00 0x00 0xFF 0x00 [(0x0302, 0x20), (0x0303, 0x10), (0x0304, 0x03)])
    (regsAfter r, writesAfter r) = ([0x00, 0x00, 0x00, 0xFD, 0x00, 0x0310, 6], [(0x01FF, 0x03), (0x01FE, 0x04)]) := by decide

/-- V67 (R522): JSR $4000 : SP wrap from 00. -/
theorem test_jsr_v67 :
    let r := step (start 0x0302 0x00 0x00 0x00 0x00 0x00 [(0x0302, 0x20), (0x0304, 0x40)])
    (regsAfter r, writesAfter r) = ([0x00, 0x00, 0x00, 0xFE, 0x00, 0x4000, 6], [(0x0100, 0x03), (0x01FF, 0x04)]) := by decide

/-- V68 (R523): RTS : pull +1. -/
theorem test_rts_v68 :
    let r := step (start 0x0200 0x00 0x00 0x00 0xFD 0x00 [(0x01FE, 0x04), (0x01FF, 0x03), (0x0200, 0x60)])
    (regsAfter r, writesAfter r) = ([0x00, 0x00, 0x00, 0xFF, 0x00, 0x0305, 6], []) := by decide

/-- V69 (R523): RTS : pulled FFFF returns to 0000. -/
theorem test_rts_v69 :
    let r := step (start 0x0200 0x00 0x00 0x00 0xFD 0x00 [(0x01FE, 0xFF), (0x01FF, 0xFF), (0x0200, 0x60)])
    (regsAfter r, writesAfter r) = ([0x00, 0x00, 0x00, 0xFF, 0x00, 0x0000, 6], []) := by decide

/-- V70 (R526): BRK : pushes, sets B then I. -/
theorem test_brk_v70 :
    let r := step (start 0x0200 0x00 0x00 0x00 0xFF 0x00 [(0xFFFF, 0x03)])
    (regsAfter r, writesAfter r) = ([0x00, 0x00, 0x00, 0xFC, 0x14, 0x0300, 7], [(0x01FF, 0x02), (0x01FE, 0x02), (0x01FD, 0x10)]) := by decide

/-- V71 (R526): BRK : D not cleared, flags kept. -/
theorem test_brk_v71 :
    let r := step (start 0x0200 0x00 0x00 0x00 0xFF 0xCB [(0xFFFF, 0x03)])
    (regsAfter r, writesAfter r) = ([0x00, 0x00, 0x00, 0xFC, 0xDF, 0x0300, 7], [(0x01FF, 0x02), (0x01FE, 0x02), (0x01FD, 0xDB)]) := by decide

/-- V72 (R527): RTI : pull P then PC, no +1. -/
theorem test_rti_v72 :
    let r := step (start 0x0200 0x00 0x00 0x00 0xFC 0x00 [(0x01FD, 0x10), (0x01FE, 0x02), (0x01FF, 0x02), (0x0200, 0x40)])
    (regsAfter r, writesAfter r) = ([0x00, 0x00, 0x00, 0xFF, 0x10, 0x0202, 6], []) := by decide

/-- V73 (R527): RTI : clears B and bit5 from stack. -/
theorem test_rti_v73 :
    let r := step (start 0x0200 0x00 0x00 0x00 0xFC 0x30 [(0x01FF, 0x80), (0x0200, 0x40)])
    (regsAfter r, writesAfter r) = ([0x00, 0x00, 0x00, 0xFF, 0x00, 0x8000, 6], []) := by decide

/-- V75 (R540): PHA : SP wrap 00. -/
theorem test_pha_v75 :
    let r := step (start 0x0200 0x42 0x00 0x00 0x00 0x00 [(0x0200, 0x48)])
    (regsAfter r, writesAfter r) = ([0x42, 0x00, 0x00, 0xFF, 0x00, 0x0201, 3], [(0x0100, 0x42)]) := by decide

/-- V76 (R541): PHP : pushes P exactly. -/
theorem test_php_v76 :
    let r := step (start 0x0200 0x00 0x00 0x00 0xFF 0x81 [(0x0200, 0x08)])
    (regsAfter r, writesAfter r) = ([0x00, 0x00, 0x00, 0xFE, 0x81, 0x0201, 3], [(0x01FF, 0x81)]) := by decide

/-- V78 (R542): PLA : pull sets N. -/
theorem test_pla_v78 :
    let r := step (start 0x0200 0x00 0x00 0x00 0xFE 0x00 [(0x01FF, 0x80), (0x0200, 0x68)])
    (regsAfter r, writesAfter r) = ([0x80, 0x00, 0x00, 0xFF, 0x80, 0x0201, 4], []) := by decide

/-- V79 (R542): PLA : SP wrap FF. -/
theorem test_pla_v79 :
    let r := step (start 0x0200 0x00 0x00 0x00 0xFF 0x00 [(0x0200, 0x68)])
    (regsAfter r, writesAfter r) = ([0x00, 0x00, 0x00, 0x00, 0x02, 0x0201, 4], []) := by decide

/-- V80 (R543): PLP : loads all 8 bits. -/
theorem test_plp_v80 :
    let r := step (start 0x0200 0x00 0x00 0x00 0xFE 0x00 [(0x01FF, 0xFF), (0x0200, 0x28)])
    (regsAfter r, writesAfter r) = ([0x00, 0x00, 0x00, 0xFF, 0xFF, 0x0201, 4], []) := by decide

/-- V82 (R560): TAX : negative. -/
theorem test_tax_v82 :
    let r := step (start 0x0200 0x80 0x00 0x00 0xFF 0x00 [(0x0200, 0xAA)])
    (regsAfter r, writesAfter r) = ([0x80, 0x80, 0x00, 0xFF, 0x80, 0x0201, 2], []) := by decide

/-- V83 (R561): TAY : zero. -/
theorem test_tay_v83 :
    let r := step (start 0x0200 0x00 0x00 0x00 0xFF 0x00 [(0x0200, 0xA8)])
    (regsAfter r, writesAfter r) = ([0x00, 0x00, 0x00, 0xFF, 0x02, 0x0201, 2], []) := by decide

/-- V84 (R562): TXA. -/
theorem test_txa_v84 :
    let r := step (start 0x0200 0x00 0x7F 0x00 0xFF 0x82 [(0x0200, 0x8A)])
    (regsAfter r, writesAfter r) = ([0x7F, 0x7F, 0x00, 0xFF, 0x00, 0x0201, 2], []) := by decide

/-- V85 (R563): TYA. -/
theorem test_tya_v85 :
    let r := step (start 0x0200 0x00 0x00 0xFF 0xFF 0x00 [(0x0200, 0x98)])
    (regsAfter r, writesAfter r) = ([0xFF, 0x00, 0xFF, 0xFF, 0x80, 0x0201, 2], []) := by decide

/-- V86 (R564): TSX. -/
theorem test_tsx_v86 :
    let r := step (start 0x0200 0x00 0x00 0x00 0xFD 0x00 [(0x0200, 0xBA)])
    (regsAfter r, writesAfter r) = ([0x00, 0xFD, 0x00, 0xFD, 0x80, 0x0201, 2], []) := by decide

/-- V87 (R565): TXS : no flags. -/
theorem test_txs_v87 :
    let r := step (start 0x0200 0x00 0x00 0x00 0xFF 0x80 [(0x0200, 0x9A)])
    (regsAfter r, writesAfter r) = ([0x00, 0x00, 0x00, 0x00, 0x80, 0x0201, 2], []) := by decide

/-- V88 (R570): CLC. -/
theorem test_clc_v88 :
    let r := step (start 0x0200 0x00 0x00 0x00 0xFF 0xFF [(0x0200, 0x18)])
    (regsAfter r, writesAfter r) = ([0x00, 0x00, 0x00, 0xFF, 0xFE, 0x0201, 2], []) := by decide

/-- V89 (R571): SEC. -/
theorem test_sec_v89 :
    let r := step (start 0x0200 0x00 0x00 0x00 0xFF 0x00 [(0x0200, 0x38)])
    (regsAfter r, writesAfter r) = ([0x00, 0x00, 0x00, 0xFF, 0x01, 0x0201, 2], []) := by decide

/-- V90 (R572): CLD. -/
theorem test_cld_v90 :
    let r := step (start 0x0200 0x00 0x00 0x00 0xFF 0xFF [(0x0200, 0xD8)])
    (regsAfter r, writesAfter r) = ([0x00, 0x00, 0x00, 0xFF, 0xF7, 0x0201, 2], []) := by decide

/-- V91 (R573): SED. -/
theorem test_sed_v91 :
    let r := step (start 0x0200 0x00 0x00 0x00 0xFF 0x00 [(0x0200, 0xF8)])
    (regsAfter r, writesAfter r) = ([0x00, 0x00, 0x00, 0xFF, 0x08, 0x0201, 2], []) := by decide

/-- V92 (R574): CLI. -/
theorem test_cli_v92 :
    let r := step (start 0x0200 0x00 0x00 0x00 0xFF 0xFF [(0x0200, 0x58)])
    (regsAfter r, writesAfter r) = ([0x00, 0x00, 0x00, 0xFF, 0xFB, 0x0201, 2], []) := by decide

/-- V93 (R575): SEI. -/
theorem test_sei_v93 :
    let r := step (start 0x0200 0x00 0x00 0x00 0xFF 0x00 [(0x0200, 0x78)])
    (regsAfter r, writesAfter r) = ([0x00, 0x00, 0x00, 0xFF, 0x04, 0x0201, 2], []) := by decide

/-- V94 (R576): CLV. -/
theorem test_clv_v94 :
    let r := step (start 0x0200 0x00 0x00 0x00 0xFF 0xFF [(0x0200, 0xB8)])
    (regsAfter r, writesAfter r) = ([0x00, 0x00, 0x00, 0xFF, 0xBF, 0x0201, 2], []) := by decide

/-- V95 (R580): NOP. -/
theorem test_nop_v95 :
    let r := step (start 0x0200 0x12 0x00 0x00 0xFF 0xA5 [(0x0200, 0xEA)])
    (regsAfter r, writesAfter r) = ([0x12, 0x00, 0x00, 0xFF, 0xA5, 0x0201, 2], []) := by decide

/-- V97 (R590): LDA $1234,X : abs,X cross. -/
theorem test_lda_v97 :
    let r := step (start 0x0200 0x00 0xF0 0x00 0xFF 0x00 [(0x0200, 0xBD), (0x0201, 0x34), (0x0202, 0x12), (0x1324, 0x80)])
    (regsAfter r, writesAfter r) = ([0x80, 0xF0, 0x00, 0xFF, 0x80, 0x0203, 5], []) := by decide

/-- V98 (R590): LDA ($FF),Y : (zp),Y ptr at FF wraps. -/
theorem test_lda_v98 :
    let r := step (start 0x0200 0x00 0x00 0x01 0xFF 0x00 [(0x0000, 0x40), (0x0200, 0xB1), (0x0201, 0xFF), (0x4001, 0x11)])
    (regsAfter r, writesAfter r) = ([0x11, 0x00, 0x01, 0xFF, 0x00, 0x0202, 5], []) := by decide

/-- V100 (R591): LDX $F0,Y : zp,Y wraps. -/
theorem test_ldx_v100 :
    let r := step (start 0x0200 0x00 0x00 0x20 0xFF 0x00 [(0x0010, 0x05), (0x0200, 0xB6), (0x0201, 0xF0)])
    (regsAfter r, writesAfter r) = ([0x00, 0x05, 0x20, 0xFF, 0x00, 0x0202, 4], []) := by decide

/-- V101 (R591): LDX $10FF,Y : abs,Y cross. -/
theorem test_ldx_v101 :
    let r := step (start 0x0200 0x00 0x00 0x01 0xFF 0x00 [(0x0200, 0xBE), (0x0201, 0xFF), (0x0202, 0x10)])
    (regsAfter r, writesAfter r) = ([0x00, 0x00, 0x01, 0xFF, 0x02, 0x0203, 5], []) := by decide

/-- V102 (R592): LDY $1000,X : abs,X no cross. -/
theorem test_ldy_v102 :
    let r := step (start 0x0200 0x00 0x01 0x00 0xFF 0x00 [(0x0200, 0xBC), (0x0202, 0x10), (0x1001, 0xFF)])
    (regsAfter r, writesAfter r) = ([0x00, 0x01, 0xFF, 0xFF, 0x80, 0x0203, 4], []) := by decide

/-- V103 (R593): STA $12FF,X : abs,X cross: no penalty. -/
theorem test_sta_v103 :
    let r := step (start 0x0200 0x84 0x01 0x00 0xFF 0x00 [(0x0200, 0x9D), (0x0201, 0xFF), (0x0202, 0x12)])
    (regsAfter r, writesAfter r) = ([0x84, 0x01, 0x00, 0xFF, 0x00, 0x0203, 5], [(0x1300, 0x84)]) := by decide

/-- V104 (R593): STA ($20),Y : (zp),Y. -/
theorem test_sta_v104 :
    let r := step (start 0x0200 0x55 0x00 0x10 0xFF 0x00 [(0x0020, 0xF8), (0x0021, 0x12), (0x0200, 0x91), (0x0201, 0x20)])
    (regsAfter r, writesAfter r) = ([0x55, 0x00, 0x10, 0xFF, 0x00, 0x0202, 6], [(0x1308, 0x55)]) := by decide

/-- V105 (R594): STX $FF,Y : zp,Y wraps. -/
theorem test_stx_v105 :
    let r := step (start 0x0200 0x00 0x07 0x02 0xFF 0x00 [(0x0200, 0x96), (0x0201, 0xFF)])
    (regsAfter r, writesAfter r) = ([0x00, 0x07, 0x02, 0xFF, 0x00, 0x0202, 4], [(0x0001, 0x07)]) := by decide

/-- V106 (R595): STY $FF,X : zp,X wraps. -/
theorem test_sty_v106 :
    let r := step (start 0x0200 0x00 0x01 0x09 0xFF 0x00 [(0x0200, 0x94), (0x0201, 0xFF)])
    (regsAfter r, writesAfter r) = ([0x00, 0x01, 0x09, 0xFF, 0x00, 0x0202, 4], [(0x0000, 0x09)]) := by decide

/-- V107 (R600): the byte is carried. -/
theorem test_undefined_v107 : faultByte (step (start 0x0200 0x11 0x00 0x00 0xFF 0x00 [(0x0200, 0x02)])) = some 0x02 := by decide

/-! ## The accesses of a step: vectors B<n> -/

/-- B1 (R208). -/
theorem test_bus_brk : busAfter (step (start 0x0200 0x00 0x00 0x00 0xFF 0x00 [(0xFFFF, 0x03)])) =
    [.read 0x0200#16, .write 0x01FF#16 0x02#8, .write 0x01FE#16 0x02#8, .write 0x01FD#16 0x10#8, .read 0xFFFE#16, .read 0xFFFF#16] := by decide

/-- B2 (R208). -/
theorem test_bus_jsr : busAfter (step (start 0x0302 0x00 0x00 0x00 0xFF 0x00 [(0x0302, 0x20), (0x0303, 0x10), (0x0304, 0x03)])) =
    [.read 0x0302#16, .read 0x0303#16, .read 0x0304#16, .write 0x01FF#16 0x03#8, .write 0x01FE#16 0x04#8] := by decide

/-- B5 (R208). -/
theorem test_bus_inc : busAfter (step (start 0x0200 0x00 0x01 0x00 0xFF 0x00 [(0x0200, 0xFE), (0x0201, 0xFF), (0x0202, 0x12)])) =
    [.read 0x0200#16, .read 0x0201#16, .read 0x0202#16, .read 0x1300#16, .write 0x1300#16 0x01#8] := by decide

/-- B6 (R208). -/
theorem test_bus_lda : busAfter (step (start 0x0200 0x00 0x00 0x10 0xFF 0x00 [(0x0200, 0xB1), (0x0201, 0x20), (0x0020, 0xF8), (0x0021, 0x12)])) =
    [.read 0x0200#16, .read 0x0201#16, .read 0x0020#16, .read 0x0021#16, .read 0x1308#16] := by decide

/-- B7 (R208). -/
theorem test_bus_sta : busAfter (step (start 0x0200 0x05 0x02 0x00 0xFF 0x00 [(0x0200, 0x81), (0x0201, 0x10), (0x0013, 0x30)])) =
    [.read 0x0200#16, .read 0x0201#16, .read 0x0012#16, .read 0x0013#16, .write 0x3000#16 0x05#8] := by decide

/-- B8 (R208). -/
theorem test_bus_jmp : busAfter (step (start 0x0200 0x00 0x00 0x00 0xFF 0x00 [(0x0200, 0x6C), (0x0201, 0xFF), (0x0202, 0x30), (0x3000, 0x06)])) =
    [.read 0x0200#16, .read 0x0201#16, .read 0x0202#16, .read 0x30FF#16, .read 0x3000#16] := by decide

/-- B10 (R208). -/
theorem test_bus_plp : busAfter (step (start 0x0200 0x00 0x00 0x00 0xFE 0x00 [(0x0200, 0x28)])) =
    [.read 0x0200#16, .read 0x01FF#16] := by decide

/-! ## Reset and loading -/

/-- RV1 and RV2 (R702): SP, P, PC and cycles. -/
theorem test_reset :
    let r1 := resetTransaction (start 0x0000 0x11 0x22 0x33 0x00 0x00 [(0xFFFD, 0x02)])
    let r2 := resetTransaction ((start 0x1234 0x00 0x00 0x00 0x02 0xFF [(0xFFFC, 0x34), (0xFFFD, 0x12)]).setCycles 500#64)
    (r1.a, r1.sp, r1.pc, r2.sp, r2.p, r2.pc, r2.cycles) =
      (0x11#8, 0xFD#8, 0x0200#16, 0xFF#8, 0xFF#8, 0x1234#16, 500#64) := by decide

/-- A word placed where the next fetch begins is the instruction the very next step runs, from reset. -/
theorem test_withFetchWord :
    regsAfter (step (State.reset.withFetchWord 16 0x42A9)) = [0x42, 0, 0, 0xFD, 0, 2, 2] ∧
    regsAfter (step (State.reset.withFetchWord 24 0xC0004C)) = [0, 0, 0, 0xFD, 0, 0xC000, 3] := by decide

/-! ## Witnesses: the hypotheses of each obligation are met together -/

/-- ADC #$50 at PC, D clear. -/
def wAdc : State := start 0x0200 0x50 0x01 0x02 0xFD 0x01 [(0x0200, 0x69), (0x0201, 0x50)]

/-- D set, SP at its lower edge, PC at its upper edge. -/
def wEdge : State := start 0xFFFF 0x99 0xFF 0xFF 0x00 0x08 [(0x0000, 0xFF), (0x00FF, 0xF0), (0xFFFF, 0x06)]

/-- A JMP to its own address at PC. -/
def wHalt : State := start 0x0300 0x00 0x00 0x00 0xFF 0x00 [(0x0300, 0x4C), (0x0302, 0x03)]

/-- The only hypothesis of ResetAndHostWriteKeepTheInvariant, JsrPushesTheReturnAddress, BrkEntersTheTrap, JsrThenRtsComesBack and
PushThenPullRestores. -/
theorem witness_inv : wAdc.Inv ∧ wEdge.Inv ∧ wHalt.Inv := ⟨rfl, rfl, rfl⟩

theorem witness_DecodedBytesAreTheEncoding : decode [0xA5#8, 0xFF#8, 0x00#8] = .ok (.ldaZp 0xFF#8, [0x00#8]) := rfl

/-- The three formats: a row and the instruction it builds. -/
theorem witness_OpcodeRowsBuildTheirInstruction :
    (∃ row ∈ dispatchTable, row.form = .f1 .nop) ∧
    (∃ row ∈ dispatchTable, ∃ f, row.form = .f2 f ∧ Instr.adcImm 0xFF#8 = f 0xFF#8) ∧
    (∃ row ∈ dispatchTable, ∃ f, row.form = .f3 f ∧ Instr.jsr 0xFFFF#16 = f 0xFFFF#16) := by
  refine ⟨?_, ?_, ?_⟩
  · obtain ⟨r, h⟩ := Option.isSome_iff_exists.mp (show (Instr.row .nop).isSome = true from rfl)
    exact ⟨r, List.mem_of_find?_eq_some h, by cases h; rfl⟩
  · obtain ⟨r, h⟩ := Option.isSome_iff_exists.mp (show (Instr.row (.adcImm 0xFF#8)).isSome = true from rfl)
    exact ⟨r, List.mem_of_find?_eq_some h, Instr.adcImm, by cases h; rfl, rfl⟩
  · obtain ⟨r, h⟩ := Option.isSome_iff_exists.mp (show (Instr.row (.jsr 0xFFFF#16)).isSome = true from rfl)
    exact ⟨r, List.mem_of_find?_eq_some h, Instr.jsr, by cases h; rfl, rfl⟩

/-- A line of each kind of operand, a branch at the far end of its reach, and zero-page addresses at the edge: with a zero-page
form, without one, and one address too high. -/
theorem witness_AssembledLineIsTheInstructionWritten :
    Line.wf ⟨.STA, .absy, 0xFFFF, 0x0200⟩ = true ∧ Line.wf ⟨.LDA, .indx, 0xFF, 0x0200⟩ = true ∧
    Line.wf ⟨.JMP, .ind, 0x30FF, 0x0200⟩ = true ∧ Line.wf ⟨.BEQ, .rel, 0x0F82, 0x1000⟩ = true ∧
    Line.instr ⟨.BEQ, .rel, 0x0F82, 0x1000⟩ = some (.beq 0x80#8) ∧ Instr.operand (.beq 0x80#8) = .rel 0x80#8 ∧
    Line.shrink ⟨.LDX, .absy, 0xFF, 0x0200⟩ = ⟨.LDX, .zpy, 0xFF, 0x0200⟩ ∧
    Line.shrink ⟨.LDA, .absy, 0xFF, 0x0200⟩ = ⟨.LDA, .absy, 0xFF, 0x0200⟩ ∧
    Line.shrink ⟨.LDA, .abs, 0x100, 0x0200⟩ = ⟨.LDA, .abs, 0x100, 0x0200⟩ ∧
    Line.shrink ⟨.JSR, .abs, 0x00, 0x0200⟩ = ⟨.JSR, .abs, 0x00, 0x0200⟩ := by
  decide

/-- At PC = FFFF the operand byte comes from 0000. -/
theorem witness_StepRunsTheDecodedInstruction :
    decode (bytesAtPC wAdc) = .ok (.adcImm 0x50#8, [0x00#8]) ∧ decode (bytesAtPC wEdge) = .ok (.aslZp 0xFF#8, [0x00#8]) :=
  ⟨rfl, rfl⟩

/-- Both outcomes of a step. -/
theorem witness_StepSucceedsOrIsUnknownOpcode :
    (regsAfter (step wAdc)).length = 7 ∧ faultByte (step (start 0xFFFF 0 0 0 0 0 [(0xFFFF, 0xFF)])) = some 0xFF := by decide

theorem witness_UnknownOpcodeExactlyAtUndefinedBytes :
    opcodeAt (start 0x0200 0 0 0 0 0 [(0x0200, 0x02)]) ∈ undefinedOpcodes ∧
    opcodeAt (start 0xFFFF 0 0 0 0 0 [(0xFFFF, 0xFF)]) ∈ undefinedOpcodes := by decide

theorem witness_PlacedWordIsTheNextInstruction :
    wEdge.Inv ∧ decodeTableWord 24 0x30FF6C = some (.jmpInd 0x30FF#16) ∧ decodeTableWord 8 0x00 = some .brk := by
  exact ⟨rfl, rfl, rfl⟩

/-- A store to the top byte of memory, and one that removes the last listed byte. -/
theorem witness_StepKeepsTheInvariant :
    (start 0x0200 0x01 0 0 0 0 [(0x0200, 0x8D), (0x0201, 0xFF), (0x0202, 0xFF)]).Inv ∧
    writesAfter (step (start 0x0200 0x01 0 0 0 0 [(0x0200, 0x8D), (0x0201, 0xFF), (0x0202, 0xFF)])) = [(0xFFFF, 0x01)] ∧
    writesAfter (step (start 0x0200 0x00 0 0 0 0 [(0x0200, 0x8D), (0x0201, 0x02), (0x0202, 0x02)])) = [(0x0202, 0x00)] :=
  ⟨rfl, by decide, by decide⟩

/-- An instruction that lists flags, and one that lists none. -/
theorem witness_UnlistedFlagsAreUnchanged :
    (∃ u t, fetch wAdc = .instr (.adcImm 0x50#8) u ∧ step wAdc = .next t) ∧
    (∃ u t, fetch wHalt = .instr (.jmpAbs 0x0300#16) u ∧ step wHalt = .next t) ∧ flagsWritten .JMP = [] :=
  ⟨⟨_, _, rfl, rfl⟩, ⟨_, _, rfl, rfl⟩, rfl⟩

/-- LSR of A, and ROR of memory. -/
theorem witness_RightShiftsClearNegative :
    Instr.mnemonic .lsrAcc = .LSR ∧ Instr.mode .lsrAcc = .acc ∧
    Instr.mnemonic (.rorZpx 0xFF#8) = .ROR ∧ Instr.operand (.rorZpx 0xFF#8) = .mem (.zpx 0xFF#8) ∧ wEdge.Inv :=
  ⟨rfl, rfl, rfl, rfl, rfl⟩

/-- An immediate and a page-crossing form; the second state has D set and serves the decimal clauses. -/
theorem witness_AdcAddsWithCarry :
    Instr.mnemonic (.adcImm 0x50#8) = .ADC ∧ Instr.operand (.adcImm 0x50#8) = (Source.imm 0x50#8).operand ∧
    flag .D wAdc.p = false ∧ Instr.operand (.adcIndy 0xFF#8) = (Source.mem (.indy 0xFF#8)).operand ∧
    (load (.mem (.absx 0x12FF#16)) wAdc).extra = 1 := by decide

theorem witness_SbcSubtractsWithBorrow :
    Instr.mnemonic (.sbcZp 0xFF#8) = .SBC ∧ Instr.operand (.sbcZp 0xFF#8) = (Source.mem (.zp 0xFF#8)).operand ∧
    flag .D wAdc.p = false := by decide

theorem witness_DecimalModeGoesThroughDecAdj :
    flag .D wEdge.p = true ∧ flag .D wAdc.p = false ∧ Instr.mnemonic (.adcImm 0x01#8) = .ADC ∧
    Instr.operand (.adcImm 0x01#8) = (Source.imm 0x01#8).operand ∧ Instr.mnemonic (.sbcImm 0x01#8) = .SBC ∧
    Instr.operand (.sbcImm 0x01#8) = (Source.imm 0x01#8).operand := by decide

/-- D clear with an ADC at PC; D set with an ASL at PC; D set with an UNDEFINED opcode at PC. -/
theorem witness_DecAdjReachesDecimalAdcAndSbcAlone :
    flag .D wAdc.p = false ∧ flag .D wEdge.p = true ∧
    (∀ i u, fetch wEdge = .instr i u → i.mnemonic ≠ .ADC ∧ i.mnemonic ≠ .SBC) ∧
    (∀ i u, fetch (start 0x0200 0 0 0 0 0x08 [(0x0200, 0x02)]) = .instr i u → i.mnemonic ≠ .ADC ∧ i.mnemonic ≠ .SBC) := by
  refine ⟨rfl, rfl, fun i u h => ?_, fun i u h => ?_⟩
  · have h2 : fetch wEdge = .instr (.aslZp 0xFF#8) (wEdge.setBus [.read 0xFFFF#16, .read 0x0000#16]) := rfl
    rw [h2] at h; cases h; decide
  · have h2 : fetch (start 0x0200 0 0 0 0 0x08 [(0x0200, 0x02)]) =
        .undefined 0x02#8 ((start 0x0200 0 0 0 0 0x08 [(0x0200, 0x02)]).setBus [.read 0x0200#16]) := rfl
    rw [h2] at h; cases h

theorem witness_LogicalOperationsCombineBits :
    Instr.operand (.andImm 0xFF#8) = (Source.imm 0xFF#8).operand ∧ Instr.mnemonic (.andImm 0xFF#8) = .AND ∧
    Instr.operand (.oraIndx 0xFF#8) = (Source.mem (.indx 0xFF#8)).operand ∧ Instr.mnemonic (.oraIndx 0xFF#8) = .ORA ∧
    Instr.operand (.eorAbsy 0xFFFF#16) = (Source.mem (.absy 0xFFFF#16)).operand ∧
    Instr.mnemonic (.eorAbsy 0xFFFF#16) = .EOR := by decide

theorem witness_BitTestsMemoryAgainstA :
    Instr.mnemonic (.bitAbs 0xFFFF#16) = .BIT ∧ Instr.operand (.bitAbs 0xFFFF#16) = .mem (.abs 0xFFFF#16) := by decide

/-- Accumulator and memory, of each of the four. -/
theorem witness_ShiftsWorkOnAOrOnMemory :
    (Instr.operand .aslAcc = Target.acc.operand ∧ Instr.mnemonic .aslAcc = .ASL) ∧
    (Instr.operand (.lsrAbsx 0x12FF#16) = (Target.mem (.absx 0x12FF#16)).operand ∧ Instr.mnemonic (.lsrAbsx 0x12FF#16) = .LSR) ∧
    (Instr.operand .rolAcc = Target.acc.operand ∧ Instr.mnemonic .rolAcc = .ROL) ∧
    (Instr.operand (.rorZp 0xFF#8) = (Target.mem (.zp 0xFF#8)).operand ∧ Instr.mnemonic (.rorZp 0xFF#8) = .ROR) := by decide

theorem witness_IncDecMemoryWrapsAndSetsZN :
    Instr.operand (.incZpx 0xFF#8) = .mem (.zpx 0xFF#8) ∧ Instr.mnemonic (.incZpx 0xFF#8) = .INC ∧
    Instr.operand (.decAbs 0xFFFF#16) = .mem (.abs 0xFFFF#16) ∧ Instr.mnemonic (.decAbs 0xFFFF#16) = .DEC ∧ wEdge.Inv :=
  ⟨rfl, rfl, rfl, rfl, rfl⟩

theorem witness_ComparesSetFlagsOnly :
    Instr.operand (.cmpImm 0x00#8) = (Source.imm 0x00#8).operand ∧ Instr.mnemonic (.cmpImm 0x00#8) = .CMP ∧
    Instr.operand (.cpxZp 0xFF#8) = (Source.mem (.zp 0xFF#8)).operand ∧ Instr.mnemonic (.cpxZp 0xFF#8) = .CPX ∧
    Instr.operand (.cpyAbs 0xFFFF#16) = (Source.mem (.abs 0xFFFF#16)).operand ∧ Instr.mnemonic (.cpyAbs 0xFFFF#16) = .CPY := by
  decide

/-- Each branch, taken and not taken; and a taken one that stays on the page of the next instruction, and one that leaves it. -/
theorem witness_BranchesTestOneFlag :
    [Instr.operand (.bcc 0x80#8), Instr.operand (.bcs 0x7F#8)] = [.rel 0x80#8, .rel 0x7F#8] ∧
    [Mnemonic.BCC, .BNE, .BPL, .BVC].map (branchCond · 0x00#8) = [true, true, true, true] ∧
    [Mnemonic.BCS, .BEQ, .BMI, .BVS].map (branchCond · 0x00#8) = [false, false, false, false] ∧
    [Mnemonic.BCC, .BNE, .BPL, .BVC].map (branchCond · 0xFF#8) = [false, false, false, false] ∧
    [Mnemonic.BCS, .BEQ, .BMI, .BVS].map (branchCond · 0xFF#8) = [true, true, true, true] ∧
    crossed 0x1002#16 (0x1002#16 + sext16 0x7F#8) = false ∧ crossed 0x1002#16 (0x1002#16 + sext16 0x80#8) = true ∧
    crossed 0xFFF2#16 (0xFFF2#16 + sext16 0x10#8) = true := by decide

theorem witness_PushesStoreThenDecrement : wEdge.Inv ∧ wEdge.sp = 0x00#8 ∧ (Instr.pha = .pha ∨ Instr.pha = .php) :=
  ⟨rfl, rfl, .inl rfl⟩

theorem witness_TransfersCopyARegister :
    (Instr.tya, Reg.Y, Reg.A) ∈ [(Instr.tax, Reg.A, Reg.X), (.tay, .A, .Y), (.txa, .X, .A), (.tya, .Y, .A), (.tsx, .SP, .X), (.txs, .X, .SP)] := by
  decide

theorem witness_FlagInstructionsWriteOneFlag :
    (Instr.clv, Flag.V, false) ∈ [(Instr.clc, Flag.C, false), (.sec, .C, true), (.cld, .D, false), (.sed, .D, true), (.cli, .I, false),
      (.sei, .I, true), (.clv, .V, false)] := by decide

theorem witness_LoadsFillTheRegister :
    Instr.operand (.ldaIndy 0xFF#8) = (Source.mem (.indy 0xFF#8)).operand ∧ Instr.mnemonic (.ldaIndy 0xFF#8) = .LDA ∧
    Instr.operand (.ldxZpy 0xFF#8) = (Source.mem (.zpy 0xFF#8)).operand ∧ Instr.mnemonic (.ldxZpy 0xFF#8) = .LDX ∧
    Instr.operand (.ldyImm 0x00#8) = (Source.imm 0x00#8).operand ∧ Instr.mnemonic (.ldyImm 0x00#8) = .LDY := by decide

theorem witness_StoresWriteTheRegister :
    wEdge.Inv ∧ Instr.operand (.staIndy 0xFF#8) = .mem (.indy 0xFF#8) ∧ Instr.mnemonic (.staIndy 0xFF#8) = .STA ∧
    Instr.operand (.stxZpy 0xFF#8) = .mem (.zpy 0xFF#8) ∧ Instr.mnemonic (.stxZpy 0xFF#8) = .STX ∧
    Instr.operand (.styAbs 0xFFFF#16) = .mem (.abs 0xFFFF#16) ∧ Instr.mnemonic (.styAbs 0xFFFF#16) = .STY :=
  ⟨rfl, rfl, rfl, rfl, rfl, rfl, rfl⟩

/-- A handler state other than BRK's own, with SP and the three stack bytes as BRK left them. -/
theorem witness_BrkThenRtiComesBack :
    wEdge.Inv ∧ ∃ t, exec .brk wEdge = .next t ∧
      (t.setA 0x42#8).sp = t.sp ∧ ∀ a : Addr, a ∈ storedTo .brk wEdge → (t.setA 0x42#8).mem.read a.toNat = t.mem.read a.toNat :=
  ⟨rfl, _, rfl, rfl, fun _ _ => rfl⟩

/-- A store of a NOP byte just past itself; a read-modify-write that makes the next opcode a NOP; a push onto the next
instruction's second byte. -/
theorem witness_StoredByteIsFetchedNext :
    (let s := start 0x0200 0xEA 0x01 0x02 0xFD 0x00 []
     s.Inv ∧ Instr.operand (.staAbs 0x0203#16) = .mem (.abs 0x0203#16) ∧ Instr.mnemonic (.staAbs 0x0203#16) = .STA ∧
     (resolve (.abs 0x0203#16) s).ea = s.pc + BitVec.ofNat 16 (Instr.length (.staAbs 0x0203#16))) ∧
    (let s := start 0x0200 0 0 0 0xFD 0 [(0x0203, 0xE9)]
     s.Inv ∧ ∃ t, exec (.incAbs 0x0203#16) s = .next t ∧ .write (t.pc + BitVec.ofNat 16 0) 0xEA#8 ∈ t.bus) ∧
    (let s := start 0x01FC 0x77 0 0 0xFE 0 [(0x01FC, 0x48), (0x01FD, 0xA9)]
     s.Inv ∧ ∃ t, exec .pha s = .next t ∧ .write (t.pc + BitVec.ofNat 16 1) 0x77#8 ∈ t.bus) :=
  ⟨⟨rfl, rfl, rfl, rfl⟩, ⟨rfl, _, rfl, .tail _ (.head _)⟩, ⟨rfl, _, rfl, .head _⟩⟩

theorem witness_HaltedStateLoops : halted wHalt = true ∧ halted wAdc = false := by decide

/-- A host that answers FF at C000 and empties its memory on that read, and is plain RAM elsewhere. -/
def wHost : BusRead := fun s a => if a = 0xC000#16 then (0xFF#8, []) else plainRam s a

/-- A step that reaches no address the host answers otherwise; and the host's own byte as an opcode, UNDEFINED or not. -/
theorem witness_AccessesAreThoseListed :
    (∀ a, a = wAdc.pc ∨ (∃ t, stepWith decAdjReference wAdc plainRam = .next t ∧ .read a ∈ t.bus) → ∀ u, wHost u a = plainRam u a) ∧
    dispatch (wHost ((start 0xC000 0 0 0 0 0 []).setBus []) 0xC000#16).1 = none ∧
    dispatch (wHost (wAdc.setBus []) wAdc.pc).1 ≠ none := by
  refine ⟨fun a h u => ?_, by decide, by decide⟩
  have ha : a ≠ 0xC000#16 := by
    rcases h with rfl | ⟨t, ht, hb⟩
    · decide
    · have hl : busAfter (.next t) = [.read 0x0200#16, .read 0x0201#16] := by rw [← ht]; decide
      rw [show t.bus = _ from hl] at hb
      simp at hb; rcases hb with rfl | rfl <;> decide
  simp [wHost, ha]

/-- LDA $C000 takes the host's answer (R10, R201, R590), and the reset vector is read through BUS_READ too (R702). -/
theorem test_bus_read :
    regsAfter (stepWith decAdjReference (start 0x0200 0 0 0 0xFD 0 [(0x0200, 0xAD), (0x0202, 0xC0)]) wHost) =
      [0xFF, 0, 0, 0xFD, 0x80, 0x0203, 4] ∧
    (resetTransaction (start 0 0 0 0 0 0 []) fun s a => (if a = 0xFFFD#16 then 0x03#8 else 0x40#8, s.mem)).pc = 0x0340#16 := by
  decide

/-- A form that stores nothing, and one that stores. -/
theorem witness_MemoryChangesOnlyWhereStored :
    storedTo (.ldaZp 0x10#8) wAdc = [] ∧ 0x0000#16 ∉ storedTo .brk wEdge := by decide

theorem witness_PCAdvancesByTheLength :
    Instr.mnemonic .pla ∉ [Mnemonic.JMP, .JSR, .RTS, .BRK, .RTI] ∧ ∀ off, Instr.operand .pla ≠ .rel off :=
  ⟨by decide, fun _ h => by cases h⟩

/-- A step with no surcharge, and a taken branch that leaves the page. -/
theorem witness_CyclesAdvanceByBaseAndSurcharge :
    (∃ u t, fetch wAdc = .instr (.adcImm 0x50#8) u ∧ step wAdc = .next t) ∧
    surcharge (.bne 0x80#8) (start 0x1000 0 0 0 0 0 []) = 2 ∧ surcharge (.ldaAbsx 0x12FF#16) wAdc = 1 ∧
    surcharge (.staAbsx 0x12FF#16) wAdc = 0 :=
  ⟨⟨_, _, rfl, rfl⟩, rfl, rfl, rfl⟩

theorem witness_FlagsInfluenceOnlyTheirReaders :
    Instr.mnemonic .sei ∉ flagReaders .I ∧ Instr.mnemonic (.ldaZp 0xFF#8) ∉ flagReaders .D := by decide

theorem witness_SetZNWritesZeroAndNegative : Flag.C ≠ .Z ∧ Flag.C ≠ .N := by decide

theorem witness_CompareFlagsAreOfTheDifference : Flag.V ≠ .C ∧ Flag.V ≠ .Z ∧ Flag.V ≠ .N := by decide

theorem witness_ShiftBytesAsNumbers :
    aslByte ∈ [aslByte, rolByte] ∧ rorByte ∈ [lsrByte, rorByte] ∧ rolByte ∈ [aslByte, lsrByte, rolByte, rorByte] ∧
    Flag.U ≠ .C ∧ Flag.U ≠ .Z ∧ Flag.U ≠ .N := by simp

end Sys2Proof.Tests
end

section
/-! SUPPORT. Where the parameter DEC_ADJ can matter (00_scope.md R10, 40_arithmetic.md R403): the machine under its parameters
agrees with `exec` and `step` at the reference, and another DEC_ADJ is consulted by decimal ADC and SBC alone. -/

namespace Sys2Proof.Machine

/-! The machine at the two references. -/

/-- The two ways a meaning is chosen, by the constructor (`exec`) and by operand and mnemonic with the table's base cost
(`execWith`), agree on every row. -/
theorem execWith_decAdjReference (i : Instr) (s : State) : execWith decAdjReference i s = exec i s := by
  cases i <;> rfl

/-- A fetch makes no use of DEC_ADJ and leaves all but the access record as it was, so only the fetched instruction can tell
`stepWith` from `step`. -/
theorem stepWith_eq_step {adj : DecAdj} {s : State}
    (h : ∀ i l, fetch s = .instr i (s.setBus l) → execWith adj i (s.setBus l) = exec i (s.setBus l)) :
    stepWith adj s = step s := by
  rcases fetch_cases s with ⟨op, l, hf⟩ | ⟨i, l, hf⟩
  · simp only [stepWith, step, hf]
  · simpa only [stepWith, step, hf] using h i l hf

/-! DEC_ADJ through one instruction. -/

section Irrelevance

variable {p : Byte} {s : State} {i : Instr}

theorem aluAdd_of_decimal_clear (hD : flag .D p = false) (adj : DecAdj) (a m : Byte) :
    aluAdd adj a m p = addBinary a m (flag .C p) := by
  simp [aluAdd, hD]

theorem aluSub_of_decimal_clear (hD : flag .D p = false) (adj : DecAdj) (a m : Byte) :
    aluSub adj a m p = addBinary a (~~~ m) (flag .C p) := by
  simp [aluSub, hD]

theorem adcWith_adj_irrelevant (hD : flag .D s.p = false) (adj adj' : DecAdj) (base : Nat) (src : Source) (bus : BusRead) :
    adcWith adj base src s bus = adcWith adj' base src s bus := by
  simp only [adcWith, aluAdd_of_decimal_clear hD]

theorem sbcWith_adj_irrelevant (hD : flag .D s.p = false) (adj adj' : DecAdj) (base : Nat) (src : Source) (bus : BusRead) :
    sbcWith adj base src s bus = sbcWith adj' base src s bus := by
  simp only [sbcWith, aluSub_of_decimal_clear hD]

/-- The instruction `i` does not consult DEC_ADJ in the state `s`: binary mode, or no ADC and no SBC (R400, R401). -/
def DecAdjUnused (i : Instr) (s : State) : Prop :=
  flag .D s.p = false ∨ (i.mnemonic ≠ .ADC ∧ i.mnemonic ≠ .SBC)

theorem DecAdjUnused.decimal_clear (h : DecAdjUnused i s) (hm : i.mnemonic = .ADC ∨ i.mnemonic = .SBC) :
    flag .D s.p = false := by
  rcases h with hD | ⟨hadc, hsbc⟩
  · exact hD
  · exact (hm.elim hadc hsbc).elim

theorem readingWith_adj_irrelevant (h : DecAdjUnused i s) (adj adj' : DecAdj) (bus : BusRead) (src : Source) :
    readingWith adj bus i src s = readingWith adj' bus i src s := by
  unfold readingWith
  split
  case h_1 hm => rw [adcWith_adj_irrelevant (h.decimal_clear (.inl hm)) adj adj']
  case h_2 hm => rw [sbcWith_adj_irrelevant (h.decimal_clear (.inr hm)) adj adj']
  all_goals rfl

theorem memoryWith_adj_irrelevant (h : DecAdjUnused i s) (adj adj' : DecAdj) (bus : BusRead) (m : MemMode) :
    memoryWith adj bus i m s = memoryWith adj' bus i m s := by
  simp only [memoryWith, readingWith_adj_irrelevant h adj adj']

theorem execWith_adj_irrelevant (h : DecAdjUnused i s) (adj adj' : DecAdj) (bus : BusRead) :
    execWith adj i s bus = execWith adj' i s bus := by
  simp only [execWith, readingWith_adj_irrelevant h adj adj', memoryWith_adj_irrelevant h adj adj']

theorem execWith_eq_exec (h : DecAdjUnused i s) (adj : DecAdj) : execWith adj i s = exec i s :=
  (execWith_adj_irrelevant h adj decAdjReference plainRam).trans (execWith_decAdjReference i s)

end Irrelevance

/-- Settles O25: at the reference every row's two meanings agree; under another DEC_ADJ the fetched instruction does not
consult it, because D is clear (the fetch keeps P) or because it is no ADC or SBC. -/
theorem decAdjReachesDecimalAdcAndSbcAlone : Obligations.DecAdjReachesDecimalAdcAndSbcAlone := by
  refine ⟨fun s => ?reference, fun adj s => ⟨fun hD => ?decimalClear, fun hno => ?otherInstruction⟩⟩
  case reference => exact stepWith_eq_step fun i l _ => execWith_decAdjReference i (s.setBus l)
  case decimalClear => exact stepWith_eq_step fun i l _ => execWith_eq_exec (s := s.setBus l) (.inl hD) adj
  case otherInstruction => exact stepWith_eq_step fun i l hf => execWith_eq_exec (.inr (hno i _ hf)) adj

end Sys2Proof.Machine
end

section
/-! SUPPORT. The flag logic unit flag by flag (10_state.md R110 to R113): what each operation of it leaves in each flag of P, and
AddBinary as numbers. -/

namespace Sys2Proof.Machine

@[simp] theorem flag_setZN (f : Flag) (v p : Byte) :
    flag f (setZN v p) = if f = .N then v.getLsbD 7 else if f = .Z then v == 0#8 else flag f p := by
  simp only [setZN, flag_setFlag]

@[simp] theorem flag_setZClearN (f : Flag) (v p : Byte) :
    flag f (setZClearN v p) = if f = .N then false else if f = .Z then v == 0#8 else flag f p := by
  simp only [setZClearN, flag_setFlag]

@[simp] theorem flag_compareFlags (f : Flag) (reg m p : Byte) :
    flag f (compareFlags reg m p) =
      if f = .N then (reg - m).getLsbD 7 else if f = .Z then reg - m == 0#8
      else if f = .C then decide (m.toNat ≤ reg.toNat) else flag f p := by
  simp only [compareFlags, flag_setFlag]

@[simp] theorem flag_setAluFlags (f : Flag) (o : Alu) (p : Byte) :
    flag f (setAluFlags o p) =
      if f = .N then o.r.getLsbD 7 else if f = .Z then o.r == 0#8
      else if f = .V then o.v else if f = .C then o.c else flag f p := by
  simp only [setAluFlags, flag_setZN, flag_setFlag]

/-! The shift and rotate bytes (42_shift_rotate.md R440 to R443): the result, and each flag of the new P. -/

@[simp] theorem aslByte_fst (v p : Byte) : (aslByte v p).1 = v <<< 1 := rfl
@[simp] theorem lsrByte_fst (v p : Byte) : (lsrByte v p).1 = v >>> 1 := rfl
@[simp] theorem rolByte_fst (v p : Byte) : (rolByte v p).1 = v <<< 1 ||| bitAt 0 (flag .C p) := rfl
@[simp] theorem rorByte_fst (v p : Byte) : (rorByte v p).1 = bitAt 7 (flag .C p) ||| v >>> 1 := rfl

@[simp] theorem flag_aslByte (f : Flag) (v p : Byte) :
    flag f (aslByte v p).2 =
      if f = .N then (aslByte v p).1.getLsbD 7 else if f = .Z then (aslByte v p).1 == 0#8
      else if f = .C then v.getLsbD 7 else flag f p := by
  simp only [aslByte, flag_setZN, flag_setFlag]

@[simp] theorem flag_lsrByte (f : Flag) (v p : Byte) :
    flag f (lsrByte v p).2 =
      if f = .N then false else if f = .Z then (lsrByte v p).1 == 0#8
      else if f = .C then v.getLsbD 0 else flag f p := by
  simp only [lsrByte, flag_setZClearN, flag_setFlag]

@[simp] theorem flag_rolByte (f : Flag) (v p : Byte) :
    flag f (rolByte v p).2 =
      if f = .N then (rolByte v p).1.getLsbD 7 else if f = .Z then (rolByte v p).1 == 0#8
      else if f = .C then v.getLsbD 7 else flag f p := by
  simp only [rolByte, flag_setZN, flag_setFlag]

@[simp] theorem flag_rorByte (f : Flag) (v p : Byte) :
    flag f (rorByte v p).2 =
      if f = .N then false else if f = .Z then (rorByte v p).1 == 0#8
      else if f = .C then v.getLsbD 0 else flag f p := by
  simp only [rorByte, flag_setZClearN, flag_setFlag]

/-- Settles O15: Z and N are written, and every other flag reads through both writes. -/
theorem setZNWritesZeroAndNegative : Obligations.SetZNWritesZeroAndNegative :=
  fun v p => ⟨by simp, by simp, fun f hZ hN => by simp [hZ, hN]⟩

/-- Settles O17: C, Z and N are written, and every other flag reads through the three writes. -/
theorem compareFlagsAreOfTheDifference : Obligations.CompareFlagsAreOfTheDifference :=
  fun reg m p => ⟨by simp, by simp, by simp, fun f hC hZ hN => by simp [hC, hZ, hN]⟩

/-- The nine bits of AddBinary's sum hold it exactly. -/
theorem addBinary_sum_toNat (a b : Byte) (cin : Bool) :
    (a.setWidth 9 + b.setWidth 9 + (BitVec.ofBool cin).setWidth 9).toNat = a.toNat + b.toNat + cin.toNat := by
  have ha := a.isLt
  have hb := b.isLt
  have hc := cin.toNat_le
  simp only [BitVec.toNat_add, BitVec.toNat_setWidth, BitVec.toNat_ofBool]
  omega

/-- Result and carry of AddBinary are the low eight bits and the ninth bit of the sum. -/
theorem addBinary_exact (a b : Byte) (cin : Bool) :
    (addBinary a b cin).r.toNat + 256 * (addBinary a b cin).c.toNat = a.toNat + b.toNat + cin.toNat := by
  rw [← addBinary_sum_toNat]
  generalize hs : a.setWidth 9 + b.setWidth 9 + (BitVec.ofBool cin).setWidth 9 = s
  have hlt := s.isLt
  have hr : (addBinary a b cin).r.toNat = s.toNat % 256 := by simp [addBinary, hs]
  have hc : (addBinary a b cin).c.toNat = s.toNat / 256 := by
    rw [show (addBinary a b cin).c = s.toNat.testBit 8 by simp [addBinary, hs, BitVec.getLsbD], Nat.toNat_testBit]
    omega
  omega

/-- AddBinary's overflow: the operands share a sign and the result's differs. -/
theorem addBinary_overflow_iff (a b : Byte) (cin : Bool) :
    (addBinary a b cin).v = true ↔ a.msb = b.msb ∧ (addBinary a b cin).r.msb ≠ a.msb := by
  generalize hr : (addBinary a b cin).r = r
  have hv : (addBinary a b cin).v = (!(a.msb ^^ b.msb) && (a.msb ^^ r.msb)) := by
    subst hr
    simp [addBinary, BitVec.msb_eq_getLsbD_last]
  simp [hv, ne_comm]

/-- Settles O16: the ninth bit of the sum is the carry, and bit 7 of the sign mask is the overflow. -/
theorem addBinaryIsExact : Obligations.AddBinaryIsExact :=
  fun a b cin => ⟨addBinary_exact a b cin, addBinary_overflow_iff a b cin⟩

end Sys2Proof.Machine
end

section
/-! SUPPORT. Everything `exec` can do, once: the meaning of each mnemonic as a function on states. Rules of the whole machine
split over the meanings, not over the 151 rows. -/

namespace Sys2Proof.Machine

/-- `Meaning i f`: by the rule of its mnemonic the instruction `i` takes each state `s` to `f s`. -/
inductive Meaning : Instr → (State → State) → Prop
  | adc {i src} (hm : i.mnemonic = .ADC) (ho : i.operand = Source.operand src) :
      Meaning i (adcWith decAdjReference i.baseCycles src)
  | sbc {i src} (hm : i.mnemonic = .SBC) (ho : i.operand = Source.operand src) :
      Meaning i (sbcWith decAdjReference i.baseCycles src)
  | and {i src} (hm : i.mnemonic = .AND) (ho : i.operand = Source.operand src) :
      Meaning i (logical (· &&& ·) i.baseCycles src)
  | ora {i src} (hm : i.mnemonic = .ORA) (ho : i.operand = Source.operand src) :
      Meaning i (logical (· ||| ·) i.baseCycles src)
  | eor {i src} (hm : i.mnemonic = .EOR) (ho : i.operand = Source.operand src) :
      Meaning i (logical (· ^^^ ·) i.baseCycles src)
  | cmp {i src} (hm : i.mnemonic = .CMP) (ho : i.operand = Source.operand src) :
      Meaning i fun s => compareReg s.a i.baseCycles src s
  | cpx {i src} (hm : i.mnemonic = .CPX) (ho : i.operand = Source.operand src) :
      Meaning i fun s => compareReg s.x i.baseCycles src s
  | cpy {i src} (hm : i.mnemonic = .CPY) (ho : i.operand = Source.operand src) :
      Meaning i fun s => compareReg s.y i.baseCycles src s
  | lda {i src} (hm : i.mnemonic = .LDA) (ho : i.operand = Source.operand src) :
      Meaning i (loadReg State.setA i.baseCycles src)
  | ldx {i src} (hm : i.mnemonic = .LDX) (ho : i.operand = Source.operand src) :
      Meaning i (loadReg State.setX i.baseCycles src)
  | ldy {i src} (hm : i.mnemonic = .LDY) (ho : i.operand = Source.operand src) :
      Meaning i (loadReg State.setY i.baseCycles src)
  | bit {i m} (hm : i.mnemonic = .BIT) (ho : i.operand = .mem m) : Meaning i (bitTest i.baseCycles m)
  | inc {i m} (hm : i.mnemonic = .INC) (ho : i.operand = .mem m) : Meaning i (stepMem 1#8 i.baseCycles m)
  | dec {i m} (hm : i.mnemonic = .DEC) (ho : i.operand = .mem m) : Meaning i (stepMem (-1#8) i.baseCycles m)
  | sta {i m} (hm : i.mnemonic = .STA) (ho : i.operand = .mem m) : Meaning i fun s => storeReg s.a i.baseCycles m s
  | stx {i m} (hm : i.mnemonic = .STX) (ho : i.operand = .mem m) : Meaning i fun s => storeReg s.x i.baseCycles m s
  | sty {i m} (hm : i.mnemonic = .STY) (ho : i.operand = .mem m) : Meaning i fun s => storeReg s.y i.baseCycles m s
  | asl {i t} (hm : i.mnemonic = .ASL) (ho : i.operand = Target.operand t) : Meaning i (shift aslByte i.baseCycles t)
  | lsr {i t} (hm : i.mnemonic = .LSR) (ho : i.operand = Target.operand t) : Meaning i (shift lsrByte i.baseCycles t)
  | rol {i t} (hm : i.mnemonic = .ROL) (ho : i.operand = Target.operand t) : Meaning i (shift rolByte i.baseCycles t)
  | ror {i t} (hm : i.mnemonic = .ROR) (ho : i.operand = Target.operand t) : Meaning i (shift rorByte i.baseCycles t)
  | branch {i off} (ho : i.operand = .rel off) : Meaning i fun s => branch (branchCond i.mnemonic s.p) off s
  | jmpAbs (a) : Meaning (.jmpAbs a) (goto a 3)
  | jmpInd (a) : Meaning (.jmpInd a) (jumpIndirect a)
  | jsr (a) : Meaning (.jsr a) fun s => goto a 6 (push16 (s.pc + 2#16) s)
  | rts : Meaning .rts returnSub
  | brk : Meaning .brk fun s => charge 7 (trapEntry (s.pc + 2#16) s)
  | rti : Meaning .rti fun s => charge 6 (trapReturn s)
  | pha : Meaning .pha fun s => finish 1 3 (push s.a s)
  | php : Meaning .php fun s => finish 1 3 (push s.p s)
  | pla : Meaning .pla pullA
  | plp : Meaning .plp pullP
  | inx : Meaning .inx fun s => finish 1 2 ((s.setX (s.x + 1#8)).setP (setZN (s.x + 1#8) s.p))
  | iny : Meaning .iny fun s => finish 1 2 ((s.setY (s.y + 1#8)).setP (setZN (s.y + 1#8) s.p))
  | dex : Meaning .dex fun s => finish 1 2 ((s.setX (s.x - 1#8)).setP (setZN (s.x - 1#8) s.p))
  | dey : Meaning .dey fun s => finish 1 2 ((s.setY (s.y - 1#8)).setP (setZN (s.y - 1#8) s.p))
  | tax : Meaning .tax fun s => finish 1 2 ((s.setX s.a).setP (setZN s.a s.p))
  | tay : Meaning .tay fun s => finish 1 2 ((s.setY s.a).setP (setZN s.a s.p))
  | txa : Meaning .txa fun s => finish 1 2 ((s.setA s.x).setP (setZN s.x s.p))
  | tya : Meaning .tya fun s => finish 1 2 ((s.setA s.y).setP (setZN s.y s.p))
  | tsx : Meaning .tsx fun s => finish 1 2 ((s.setX s.sp).setP (setZN s.sp s.p))
  | txs : Meaning .txs fun s => finish 1 2 (s.setSP s.x)
  | clc : Meaning .clc fun s => finish 1 2 (s.setP (setFlag .C false s.p))
  | sec : Meaning .sec fun s => finish 1 2 (s.setP (setFlag .C true s.p))
  | cld : Meaning .cld fun s => finish 1 2 (s.setP (setFlag .D false s.p))
  | sed : Meaning .sed fun s => finish 1 2 (s.setP (setFlag .D true s.p))
  | cli : Meaning .cli fun s => finish 1 2 (s.setP (setFlag .I false s.p))
  | sei : Meaning .sei fun s => finish 1 2 (s.setP (setFlag .I true s.p))
  | clv : Meaning .clv fun s => finish 1 2 (s.setP (setFlag .V false s.p))
  | nop : Meaning .nop (finish 1 2)

theorem exec_meaning_of_imp {i : Instr} (ho : i.operand = .imp) : ∃ f, Meaning i f ∧ ∀ s, exec i s = .next (f s) := by
  cases i <;> cases ho
  case inx => exact ⟨_, .inx, fun _ => rfl⟩
  case iny => exact ⟨_, .iny, fun _ => rfl⟩
  case dex => exact ⟨_, .dex, fun _ => rfl⟩
  case dey => exact ⟨_, .dey, fun _ => rfl⟩
  case rts => exact ⟨_, .rts, fun _ => rfl⟩
  case brk => exact ⟨_, .brk, fun _ => rfl⟩
  case rti => exact ⟨_, .rti, fun _ => rfl⟩
  case pha => exact ⟨_, .pha, fun _ => rfl⟩
  case php => exact ⟨_, .php, fun _ => rfl⟩
  case pla => exact ⟨_, .pla, fun _ => rfl⟩
  case plp => exact ⟨_, .plp, fun _ => rfl⟩
  case tax => exact ⟨_, .tax, fun _ => rfl⟩
  case tay => exact ⟨_, .tay, fun _ => rfl⟩
  case txa => exact ⟨_, .txa, fun _ => rfl⟩
  case tya => exact ⟨_, .tya, fun _ => rfl⟩
  case tsx => exact ⟨_, .tsx, fun _ => rfl⟩
  case txs => exact ⟨_, .txs, fun _ => rfl⟩
  case clc => exact ⟨_, .clc, fun _ => rfl⟩
  case sec => exact ⟨_, .sec, fun _ => rfl⟩
  case cld => exact ⟨_, .cld, fun _ => rfl⟩
  case sed => exact ⟨_, .sed, fun _ => rfl⟩
  case cli => exact ⟨_, .cli, fun _ => rfl⟩
  case sei => exact ⟨_, .sei, fun _ => rfl⟩
  case clv => exact ⟨_, .clv, fun _ => rfl⟩
  case nop => exact ⟨_, .nop, fun _ => rfl⟩

/-- Every instruction has a meaning, and `exec` answers it in every state: no instruction fails (R602). -/
theorem exec_meaning (i : Instr) : ∃ f, Meaning i f ∧ ∀ s, exec i s = .next (f s) := by
  rcases instr_shape i with ⟨src, ho, hm⟩ | ⟨m, ho, hm⟩ | ⟨t, ho, hm⟩ | ⟨off, ho⟩ | ⟨a, rfl⟩ | ⟨a, rfl⟩ | ⟨a, rfl⟩ | ho
  · simp only [List.mem_cons, List.not_mem_nil, or_false] at hm
    rcases hm with hm | hm | hm | hm | hm | hm | hm | hm | hm | hm | hm
    · exact ⟨_, .adc hm ho, fun s => exec_adc s hm ho⟩
    · exact ⟨_, .sbc hm ho, fun s => exec_sbc s hm ho⟩
    · exact ⟨_, .and hm ho, fun s => exec_and s hm ho⟩
    · exact ⟨_, .ora hm ho, fun s => exec_ora s hm ho⟩
    · exact ⟨_, .eor hm ho, fun s => exec_eor s hm ho⟩
    · exact ⟨_, .cmp hm ho, fun s => exec_cmp s hm ho⟩
    · exact ⟨_, .cpx hm ho, fun s => exec_cpx s hm ho⟩
    · exact ⟨_, .cpy hm ho, fun s => exec_cpy s hm ho⟩
    · exact ⟨_, .lda hm ho, fun s => exec_lda s hm ho⟩
    · exact ⟨_, .ldx hm ho, fun s => exec_ldx s hm ho⟩
    · exact ⟨_, .ldy hm ho, fun s => exec_ldy s hm ho⟩
  · simp only [List.mem_cons, List.not_mem_nil, or_false] at hm
    rcases hm with hm | hm | hm | hm | hm | hm
    · exact ⟨_, .bit hm ho, fun s => exec_bit s hm ho⟩
    · exact ⟨_, .inc hm ho, fun s => exec_inc s hm ho⟩
    · exact ⟨_, .dec hm ho, fun s => exec_dec s hm ho⟩
    · exact ⟨_, .sta hm ho, fun s => exec_sta s hm ho⟩
    · exact ⟨_, .stx hm ho, fun s => exec_stx s hm ho⟩
    · exact ⟨_, .sty hm ho, fun s => exec_sty s hm ho⟩
  · simp only [List.mem_cons, List.not_mem_nil, or_false] at hm
    rcases hm with hm | hm | hm | hm
    · exact ⟨_, .asl hm ho, fun s => exec_asl s hm ho⟩
    · exact ⟨_, .lsr hm ho, fun s => exec_lsr s hm ho⟩
    · exact ⟨_, .rol hm ho, fun s => exec_rol s hm ho⟩
    · exact ⟨_, .ror hm ho, fun s => exec_ror s hm ho⟩
  · exact ⟨_, .branch ho, fun s => exec_branch s ho⟩
  · exact ⟨_, .jmpAbs a, fun _ => rfl⟩
  · exact ⟨_, .jmpInd a, fun _ => rfl⟩
  · exact ⟨_, .jsr a, fun _ => rfl⟩
  · exact exec_meaning_of_imp ho

end Sys2Proof.Machine
end

section
/-! SUPPORT. The frame of every meaning: the registers and the flags it leaves alone, and where it leaves PC. -/

namespace Sys2Proof.Machine

theorem memMode_ne_acc (m : MemMode) : m.mode ≠ .acc := by cases m <;> nofun

theorem shift_pc (b : Byte → Byte → Byte × Byte) (base : Nat) (t : Target) (s : State) :
    (shift b base t s).pc = s.pc + BitVec.ofNat 16 (tgtLength t) := by
  cases t with
  | acc => rfl
  | mem m => exact shift_mem_pc b base m s

namespace Meaning

variable {i : Instr} {f : State → State}

/-- A meaning writes only the registers listed for its instruction; a shift writes A in accumulator mode only (R444). -/
theorem sameRegs (h : Meaning i f) (s : State) : SameRegs (regsWritten i) s (f s) := by
  apply sameRegs_of
  cases h
  case adc hm _ | sbc hm _ | and hm _ | ora hm _ | eor hm _ | lda hm _ | ldx hm _ | ldy hm _ => simp [regsWritten, hm]
  case cmp | cpx | cpy | bit | inc | dec | sta | stx | sty | branch => simp
  case asl t hm ho | lsr t hm ho | rol t hm ho | ror t hm ho =>
    cases t <;> simp [regsWritten, hm, Instr.mode, ho, Target.operand, Operand.mode, memMode_ne_acc]
  all_goals simp [regsWritten, Instr.mnemonic, read16page_eq]

/-- A meaning writes only the flags its rule lists. Those that write all of P, RTI and PLP, list all eight. -/
theorem sameFlags (h : Meaning i f) (s : State) : SameFlags (flagsWritten i.mnemonic) s (f s) := by
  intro g hg
  cases h
  case adc hm _ | sbc hm _ | and hm _ | ora hm _ | eor hm _ | cmp hm _ | cpx hm _ | cpy hm _ | lda hm _ | ldx hm _ | ldy hm _
      | bit hm _ | inc hm _ | dec hm _ =>
    simp only [hm, flagsWritten, List.mem_cons, List.not_mem_nil, or_false, not_or] at hg
    simp [hg]
  case asl t hm _ | lsr t hm _ | rol t hm _ | ror t hm _ =>
    simp only [hm, flagsWritten, List.mem_cons, List.not_mem_nil, or_false, not_or] at hg
    cases t <;> simp [hg]
  case sta | stx | sty | branch | jmpAbs | jmpInd | jsr | rts | pha | php | txs | nop => simp [read16page_eq]
  case rti | plp => exact absurd (by cases g <;> decide) hg
  all_goals
    simp only [Instr.mnemonic, flagsWritten, List.mem_cons, List.not_mem_nil, or_false, not_or] at hg
    simp [hg]

/-- A meaning that transfers no control ends past the instruction's own bytes. -/
theorem pc_past (h : Meaning i f) (s : State) (hj : i.mnemonic ∉ [.JMP, .JSR, .RTS, .BRK, .RTI])
    (hb : ∀ off, i.operand ≠ .rel off) : (f s).pc = s.pc + BitVec.ofNat 16 i.length := by
  cases h
  case adc ho | sbc ho | and ho | ora ho | eor ho | cmp ho | cpx ho | cpy ho | lda ho | ldx ho | ldy ho =>
    simp [srcLength_eq ho]
  case bit ho | inc ho | dec ho | sta ho | stx ho | sty ho => simp [memLength_eq ho]
  case asl ho | lsr ho | rol ho | ror ho => rw [← tgtLength_eq ho, shift_pc]
  case branch ho => exact absurd ho (hb _)
  case jmpAbs | jmpInd | jsr | rts | brk | rti => simp [Instr.mnemonic] at hj
  all_goals rfl

end Meaning

/-- Settles O53, from the register frame of every meaning. -/
theorem registersChangeOnlyWhereListed : Obligations.RegistersChangeOnlyWhereListed := fun i s =>
  have ⟨f, hf, he⟩ := exec_meaning i
  ⟨f s, he s, hf.sameRegs s⟩

/-- Settles O54: the instructions left out are those whose meaning is a control transfer. -/
theorem pcAdvancesByTheLength : Obligations.PCAdvancesByTheLength := fun i s hj hb =>
  have ⟨f, hf, he⟩ := exec_meaning i
  ⟨f s, he s, hf.pc_past s hj hb⟩

/-- Settles O19: the fetch keeps P, and the instruction fetched keeps the flags its rule does not list. -/
theorem unlistedFlagsAreUnchanged : Obligations.UnlistedFlagsAreUnchanged := by
  intro s t i u hfetch hstep
  obtain ⟨j, l, hj, hexec⟩ := step_next hstep
  cases hfetch.symm.trans hj
  obtain ⟨f, hf, he⟩ := exec_meaning i
  cases (he (s.setBus l)).symm.trans hexec
  have hflags : SameFlags (flagsWritten i.mnemonic) s (f (s.setBus l)) := hf.sameFlags (s.setBus l)
  exact ⟨hflags, fun hnone => eq_of_flags fun g => hflags g (by simp [hnone])⟩

end Sys2Proof.Machine
end

section
/-! SUPPORT. LSR and ROR in every form (10_state.md R113). -/

namespace Sys2Proof.Machine

theorem rightShift_target {i : Instr} (h : i.mnemonic = .LSR ∨ i.mnemonic = .ROR) :
    ∃ t : Target, i.operand = t.operand := by
  rcases h with h | h <;> cases i <;> cases h
  case inl.lsrAcc | inr.rorAcc => exact ⟨.acc, rfl⟩
  all_goals exact ⟨.mem _, rfl⟩

/-- A shift whose byte function clears N and sets Z by its result does so in the accumulator and at EA. -/
theorem shift_clears_negative {b : Byte → Byte → Byte × Byte} (hN : ∀ v p, flag .N (b v p).2 = false)
    (hZ : ∀ v p, flag .Z (b v p).2 = ((b v p).1 == 0#8)) {i : Instr} {t : Target} (ho : i.operand = t.operand)
    (base : Nat) (s : State) :
    flag .N (shift b base t s).p = false ∧
      (i.mode = .acc → (flag .Z (shift b base t s).p = true ↔ (shift b base t s).a = 0#8)) ∧
      ∀ m, i.operand = .mem m → s.Inv →
        (flag .Z (shift b base t s).p = true ↔ (shift b base t s).mem.read (resolve m s).ea.toNat = 0#8) := by
  cases t with
  | acc => exact ⟨by simp [hN], fun _ => by simp [hZ], fun m hm => nomatch ho.symm.trans hm⟩
  | mem m =>
    refine ⟨by simp [hN], fun hacc => ?_, fun m' hm hs => ?_⟩
    · exact absurd ((congrArg Operand.mode ho).symm.trans hacc) (memMode_ne_acc m)
    · cases ho.symm.trans hm
      simp [hZ, Memory.read_write_same hs]

/-- Settles O18: the byte functions of LSR and ROR end in SetZ_ClearN of their result, in every form. -/
theorem rightShiftsClearNegative : Obligations.RightShiftsClearNegative := by
  refine ⟨fun v p => ⟨by simp, by simp, fun f hZ hN => by simp [hZ, hN]⟩, fun i s hi => ?_⟩
  obtain ⟨t, ho⟩ := rightShift_target hi
  rcases hi with hm | hm
  · exact ⟨_, exec_lsr s hm ho, shift_clears_negative (by simp) (by simp) ho _ s⟩
  · exact ⟨_, exec_ror s hm ho, shift_clears_negative (by simp) (by simp) ho _ s⟩

end Sys2Proof.Machine
end

section
/-! SUPPORT. Two runs of one instruction, from states that differ in the access record and in flags alone: what the record and
the flags can influence (10_state.md R106, R118). -/

namespace Sys2Proof.Machine

/-- The state `s` with another access record and another P: the second run of a statement about two runs. -/
def State.twin (s : State) (l : List Access) (q : Byte) : State := (s.setBus l).setP q

section Twin
variable (s : State) (l : List Access) (q : Byte)

@[simp] theorem State.twin_a : (s.twin l q).a = s.a := rfl
@[simp] theorem State.twin_x : (s.twin l q).x = s.x := rfl
@[simp] theorem State.twin_y : (s.twin l q).y = s.y := rfl
@[simp] theorem State.twin_sp : (s.twin l q).sp = s.sp := rfl
@[simp] theorem State.twin_pc : (s.twin l q).pc = s.pc := rfl
@[simp] theorem State.twin_p : (s.twin l q).p = q := rfl
@[simp] theorem State.twin_cycles : (s.twin l q).cycles = s.cycles := rfl
@[simp] theorem State.twin_mem : (s.twin l q).mem = s.mem := rfl
@[simp] theorem State.twin_bus : (s.twin l q).bus = l := rfl

@[simp] theorem resolve_twin_ea (m : MemMode) : (resolve m (s.twin l q)).ea = (resolve m s).ea := by cases m <;> rfl

@[simp] theorem resolve_twin_crossed (m : MemMode) : (resolve m (s.twin l q)).crossed = (resolve m s).crossed := by
  cases m <;> rfl

@[simp] theorem pointerReads_twin (m : MemMode) : pointerReads m (s.twin l q) = pointerReads m s := by cases m <;> rfl

@[simp] theorem load_twin_val (src : Source) : (load src (s.twin l q)).val = (load src s).val := by
  cases src <;> simp [load_imm_val, load_mem_val]

@[simp] theorem load_twin_extra (src : Source) : (load src (s.twin l q)).extra = (load src s).extra := by
  cases src <;> simp [load]

@[simp] theorem loadReads_twin (src : Source) : loadReads src (s.twin l q) = loadReads src s := by
  cases src <;> simp [loadReads]

theorem branch_twin (cond : Bool) (off : Byte) : branch cond off (s.twin l q) = (branch cond off s).twin l q := by
  cases cond <;> rfl

end Twin

/-- `t'` is `t` in every register but P, in `cycles` and in memory, and in each flag in which `q` is `p`; where the access records
`l` and `l'` are equal, so are those of `t` and `t'`. -/
structure Follows (p q : Byte) (l l' : List Access) (t t' : State) : Prop where
  a : t'.a = t.a
  x : t'.x = t.x
  y : t'.y = t.y
  sp : t'.sp = t.sp
  pc : t'.pc = t.pc
  cycles : t'.cycles = t.cycles
  mem : t'.mem = t.mem
  flags : ∀ g, flag g q = flag g p → flag g t'.p = flag g t.p
  bus : l' = l → t'.bus = t.bus

/-- A branch condition depends only on the flag its mnemonic reads. -/
theorem branchCond_congr {m : Mnemonic} {p q : Byte} (h : ∀ g, m ∈ flagReaders g → flag g q = flag g p) :
    branchCond m q = branchCond m p := by
  cases m with
  | BCC | BCS => simp [branchCond, h .C (by decide)]
  | BEQ | BNE => simp [branchCond, h .Z (by decide)]
  | BMI | BPL => simp [branchCond, h .N (by decide)]
  | BVC | BVS => simp [branchCond, h .V (by decide)]
  | _ => rfl

/-- PHP and BRK read every flag, so no flag differs before them. -/
theorem eq_of_flagReaders {m : Mnemonic} {p q : Byte} (h : ∀ g, m ∈ flagReaders g → flag g q = flag g p)
    (hm : m = .PHP ∨ m = .BRK) : q = p :=
  eq_of_flags fun g => h g (by rcases hm with rfl | rfl <;> cases g <;> decide)

/-- A meaning whose mnemonic reads no flag that differs carries the two runs to states that differ no further:
each field after it is a function of registers, memory and the flags it reads. -/
theorem Meaning.follows {i : Instr} {f : State → State} (h : Meaning i f) (s : State) (l : List Access) (q : Byte)
    (hr : ∀ g, i.mnemonic ∈ flagReaders g → flag g q = flag g s.p) :
    Follows s.p q s.bus l (f s) (f (s.twin l q)) := by
  cases h
  case adc hm _ =>
    have hC := hr .C (by simp [hm, flagReaders])
    have hD := hr .D (by simp [hm, flagReaders])
    constructor <;> simp +contextual [aluAdd, hC, hD]
  case sbc hm _ =>
    have hC := hr .C (by simp [hm, flagReaders])
    have hD := hr .D (by simp [hm, flagReaders])
    constructor <;> simp +contextual [aluSub, hC, hD]
  case asl t _ _ | lsr t _ _ =>
    cases t <;> constructor <;> simp +contextual
  case rol t hm _ | ror t hm _ =>
    have hC := hr .C (by simp [hm, flagReaders])
    cases t <;> constructor <;> simp +contextual [hC]
  case branch => constructor <;> simp +contextual [branch_twin, branchCond_congr hr]
  case php | brk =>
    obtain rfl := eq_of_flagReaders hr (by simp [Instr.mnemonic])
    constructor <;> simp +contextual [trapEntry_pc]
  all_goals constructor <;> simp +contextual [read16page_eq]

/-- What follows `t` is `t` with another access record and another P. -/
theorem Follows.eq_twin {p q : Byte} {l l' : List Access} {t t' : State} (h : Follows p q l l' t t') :
    t' = t.twin t'.bus t'.p :=
  State.eq_of_fields h.a h.x h.y h.sp h.pc rfl h.cycles h.mem rfl

/-- Two runs of one instruction that reads no flag in which they differ. -/
theorem exec_twin (i : Instr) (s : State) (l : List Access) (q : Byte)
    (hr : ∀ g, i.mnemonic ∈ flagReaders g → flag g q = flag g s.p) :
    ∃ t t', exec i s = .next t ∧ exec i (s.twin l q) = .next t' ∧ Follows s.p q s.bus l t t' := by
  obtain ⟨f, hf, he⟩ := exec_meaning i
  exact ⟨f s, f (s.twin l q), he s, he (s.twin l q), hf.follows s l q hr⟩

/-- Bytes that agree in every flag but one differ by a write of that flag. -/
theorem eq_setFlag_of_others {g : Flag} {p p' : Byte} (h : ∀ k, k ≠ g → flag k p' = flag k p) :
    p' = setFlag g (flag g p') p :=
  eq_of_flags fun k => by
    rw [flag_setFlag]
    split
    case isTrue hk => rw [hk]
    case isFalse hk => exact h k hk

/-- Settles O57: a fetch begins a new record, and with no flag changed the second run is the first but for its record. -/
theorem accessRecordInfluencesNothing : Obligations.AccessRecordInfluencesNothing := by
  refine ⟨fun s l => by simp only [step, fetch_setBus], fun i s l => ?_⟩
  obtain ⟨t, t', he, he', h⟩ := exec_twin i s l s.p fun _ _ => rfl
  have hp : t'.p = t.p := eq_of_flags fun g => h.flags g rfl
  have ht : t' = t.setBus t'.bus := h.eq_twin.trans (congrArg (t.twin t'.bus) hp)
  exact ⟨t, t'.bus, he, he'.trans (congrArg _ ht)⟩

/-- Settles O58: the record is the same and one flag differs, which the instruction does not read. -/
theorem flagsInfluenceOnlyTheirReaders : Obligations.FlagsInfluenceOnlyTheirReaders := by
  intro g i s b hg
  have hothers : ∀ k, k ≠ g → flag k (setFlag g b s.p) = flag k s.p := fun k hk => by simp [hk]
  obtain ⟨t, t', he, he', h⟩ := exec_twin i s s.bus (setFlag g b s.p)
    fun k hk => hothers k fun e => hg (e ▸ hk)
  have hp : t'.p = setFlag g (flag g t'.p) t.p := eq_setFlag_of_others fun k hk => h.flags k (hothers k hk)
  have ht : t' = t.setP (setFlag g (flag g t'.p) t.p) := h.eq_twin.trans (congr (congrArg t.twin (h.bus rfl)) hp)
  exact ⟨t, flag g t'.p, he, he'.trans (congrArg _ ht)⟩

end Sys2Proof.Machine
end

section
/-! SUPPORT. The step as fetch and execution (10_state.md R120, R121): what the fetch of a decodable and of a defined opcode
finds, and the two outcomes. -/

namespace Sys2Proof.Machine

/-- The instructions a format builds have the length in bytes the format takes (R301, R302). -/
def FormLength : Form → Prop
  | .f1 i => i.length = 1
  | .f2 build => ∀ b, (build b).length = 2
  | .f3 build => ∀ a, (build a).length = 3

/-- Row by row of the opcode map. -/
theorem formLength_of_mem_dispatchTable : ∀ row ∈ dispatchTable, FormLength row.form := by
  simp only [dispatchTable, rows0x, rows1x, rows2x, rows3x, rows4x, rows5x, rows6x, rows7x, rows8x, rows9x, rowsAx, rowsBx,
    rowsCx, rowsDx, rowsEx, rowsFx, List.forall_mem_append, List.forall_mem_cons, FormLength]
  simp [Instr.length, Instr.mode, Instr.operand, Operand.mode, MemMode.mode, Mode.length]

theorem formLength_of_dispatch {op : Byte} {row : Row} (h : dispatch op = some row) : FormLength row.form :=
  formLength_of_mem_dispatchTable row (List.mem_of_find?_eq_some h)

theorem step_of_fetch {s u : State} {i : Instr} (h : fetch s = .instr i u) : step s = exec i u := by
  simp only [step, h]

/-- Where the bytes at PC decode, the fetch finds the instruction by one read for each of its bytes (R208 items 1 and 2). -/
theorem fetch_of_decode {s : State} {i : Instr} {rest : List Byte} (h : decode (bytesAtPC s) = .ok (i, rest)) :
    fetch s = .instr i (s.setBus (fetchReads s i.length)) := by
  simp only [bytesAtPC, decode] at h
  cases hd : dispatch (opcodeAt s) with
  | none => simp [hd] at h
  | some row =>
    have hlen := formLength_of_dispatch hd
    cases hf : row.form
    all_goals
      rw [hf] at hlen
      simp only [hd, hf, Except.ok.injEq, Prod.mk.injEq] at h
      obtain ⟨rfl, -⟩ := h
      rw [hlen]
    case f1 => exact fetch_f1 hd hf
    case f2 => exact fetch_f2 hd hf
    case f3 => exact fetch_f3 hd hf

/-- A defined opcode is fetched as an instruction. -/
theorem fetch_of_dispatch {s : State} {row : Row} (h : dispatch (opcodeAt s) = some row) :
    ∃ i u, fetch s = .instr i u := by
  cases hf : row.form with
  | f1 i => exact ⟨_, _, fetch_f1 h hf⟩
  | f2 build => exact ⟨_, _, fetch_f2 h hf⟩
  | f3 build => exact ⟨_, _, fetch_f3 h hf⟩

/-- Settles O7: the fetch finds the decoded instruction, and the step runs what the fetch finds. -/
theorem stepRunsTheDecodedInstruction : Obligations.StepRunsTheDecodedInstruction :=
  fun _ _ _ h => step_of_fetch (fetch_of_decode h)

/-- Settles O8: no instruction fails, so only the fetch of an UNDEFINED opcode stops a step. -/
theorem stepSucceedsOrIsUnknownOpcode : Obligations.StepSucceedsOrIsUnknownOpcode := by
  intro s
  cases hd : dispatch (opcodeAt s) with
  | none =>
    have hf := fetch_undefined hd
    exact .inr ⟨by simp only [step, hf], _, hf, rfl, rfl, rfl, rfl, rfl, rfl, rfl, rfl⟩
  | some row =>
    obtain ⟨i, u, hf⟩ := fetch_of_dispatch hd
    obtain ⟨f, -, he⟩ := exec_meaning i
    exact .inl ⟨f u, (step_of_fetch hf).trans (he u)⟩

end Sys2Proof.Machine
end

section
/-! SUPPORT. The accesses of every meaning, in order (20_memory.md R208, R209), and memory as their effect: memory after an
instruction is memory before it with the writes of its access record done in order. -/

namespace Sys2Proof.Machine

/-- Memory after the writes of a list of accesses, in order (R204); reads leave it alone. -/
def Memory.replay (m : Memory) : List Access → Memory
  | [] => m
  | .read _ :: l => Memory.replay m l
  | .write a v :: l => Memory.replay (m.write a.toNat v) l

/-- The addresses a list of accesses writes, in order. -/
def writeAddrs (l : List Access) : List Addr := (l.map Access.shape).filterMap Sum.getRight?

@[simp] theorem writeAddrs_nil : writeAddrs [] = [] := rfl
@[simp] theorem writeAddrs_read (a : Addr) (l : List Access) : writeAddrs (.read a :: l) = writeAddrs l := rfl
@[simp] theorem writeAddrs_write (a : Addr) (v : Byte) (l : List Access) :
    writeAddrs (.write a v :: l) = a :: writeAddrs l := rfl

theorem mem_writeAddrs {a : Addr} {l : List Access} : a ∈ writeAddrs l ↔ ∃ v, Access.write a v ∈ l := by
  induction l with
  | nil => simp
  | cons e l ih => cases e <;> simp [ih, exists_or]

namespace Memory

@[simp] theorem replay_nil (m : Memory) : replay m [] = m := rfl
@[simp] theorem replay_read (m : Memory) (a : Addr) (l : List Access) : replay m (.read a :: l) = replay m l := rfl
@[simp] theorem replay_write (m : Memory) (a : Addr) (v : Byte) (l : List Access) :
    replay m (.write a v :: l) = replay (m.write a.toNat v) l := rfl

@[simp] theorem replay_append (m : Memory) (l l' : List Access) : replay m (l ++ l') = replay (replay m l) l' := by
  induction l generalizing m with
  | nil => rfl
  | cons e l ih => cases e <;> simp [ih]

/-- Accesses keep the canonical form of memory. -/
theorem wf_replay {m : Memory} (h : m.wf = true) (l : List Access) : (replay m l).wf = true := by
  induction l generalizing m with
  | nil => exact h
  | cons e l ih =>
    cases e with
    | read a => exact ih h
    | write a v => exact ih (wf_write h a v)

/-- Accesses that write nothing leave memory as it is. -/
theorem replay_of_writeAddrs_nil {m : Memory} {l : List Access} (h : writeAddrs l = []) : replay m l = m := by
  induction l with
  | nil => rfl
  | cons e l ih =>
    cases e with
    | read a => exact ih h
    | write a v => simp at h

/-- An address no access writes reads as before; it needs no canonical form. -/
theorem read_replay_other (m : Memory) {a : Addr} {l : List Access} (h : a ∉ writeAddrs l) :
    (replay m l).read a.toNat = m.read a.toNat := by
  induction l generalizing m with
  | nil => rfl
  | cons e l ih =>
    cases e with
    | read b => exact ih m h
    | write b v =>
      obtain ⟨hab, hl⟩ := not_or.mp (mt List.mem_cons.mpr h)
      have hne : a.toNat ≠ b.toNat := fun e => hab (BitVec.eq_of_toNat_eq e)
      exact (ih _ hl).trans (read_write_other m v hne)

/-- Where each address is written once, it holds the byte written. -/
theorem read_replay_written {m : Memory} (hm : m.wf = true) {a : Addr} {v : Byte} {l : List Access}
    (hl : (writeAddrs l).Nodup) (h : Access.write a v ∈ l) : (replay m l).read a.toNat = v := by
  induction l generalizing m with
  | nil => cases h
  | cons e l ih =>
    cases e with
    | read b => exact ih hm hl (by simpa using h)
    | write b w =>
      obtain ⟨hb, hl⟩ := List.nodup_cons.mp hl
      rcases List.mem_cons.mp h with he | ht
      · cases he
        exact (read_replay_other _ hb).trans (read_write_same hm _ _)
      · exact ih (wf_write hm b w) hl ht

end Memory

/-! The reads of an operand write nothing. -/

@[simp] theorem replay_pointerReads (mem : Memory) (m : MemMode) (s : State) : mem.replay (pointerReads m s) = mem := by
  cases m <;> rfl

@[simp] theorem replay_loadReads (mem : Memory) (src : Source) (s : State) : mem.replay (loadReads src s) = mem := by
  cases src <;> simp [loadReads]

/-- `Performs i s t l`: the accesses `l` are those listed for the instruction `i` in the state `s`, and `t` is a state after them:
its record is that of `s` and then `l`, its memory that of `s` with the writes of `l` done. -/
structure Performs (i : Instr) (s t : State) (l : List Access) : Prop where
  shape : l.map Access.shape = expectedAccesses i s
  bus : t.bus = s.bus ++ l
  mem : t.mem = s.mem.replay l

namespace Performs

variable {i : Instr} {s t : State} {m : MemMode}

/-- The read class (R208 items 3 and 4). -/
theorem of_load {src : Source} (ho : i.operand = src.operand) (hr : readsEA i.mnemonic = true)
    (hw : writesEA i.mnemonic = false) (hbus : t.bus = s.bus ++ loadReads src s) (hmem : t.mem = s.mem) :
    Performs i s t (loadReads src s) where
  shape := by cases src <;> simp [expectedAccesses, loadReads, ho, hr, hw, Source.operand, Access.shape]
  bus := hbus
  mem := by simp [hmem]

/-- The stores. -/
theorem of_store {v : Byte} (ho : i.operand = .mem m) (hr : readsEA i.mnemonic = false) (hw : writesEA i.mnemonic = true)
    (hbus : t.bus = s.bus ++ pointerReads m s ++ [.write (resolve m s).ea v])
    (hmem : t.mem = s.mem.write (resolve m s).ea.toNat v) :
    Performs i s t (pointerReads m s ++ [.write (resolve m s).ea v]) where
  shape := by simp [expectedAccesses, ho, hr, hw, Access.shape]
  bus := by simp [hbus]
  mem := by simp [hmem]

/-- The read-modify-write class. -/
theorem of_modify {v : Byte} (ho : i.operand = .mem m) (hr : readsEA i.mnemonic = true) (hw : writesEA i.mnemonic = true)
    (hbus : t.bus = s.bus ++ pointerReads m s ++ [.read (resolve m s).ea, .write (resolve m s).ea v])
    (hmem : t.mem = s.mem.write (resolve m s).ea.toNat v) :
    Performs i s t (pointerReads m s ++ [.read (resolve m s).ea, .write (resolve m s).ea v]) where
  shape := by simp [expectedAccesses, ho, hr, hw, Access.shape]
  bus := by simp [hbus]
  mem := by simp [hmem]

/-- A shift or rotate is of the read-modify-write class in memory, and makes no access in the accumulator (R444). -/
theorem of_shift {b : Byte → Byte → Byte × Byte} {base : Nat} {tgt : Target} (ho : i.operand = tgt.operand)
    (hr : readsEA i.mnemonic = true) (hw : writesEA i.mnemonic = true) : ∃ l, Performs i s (shift b base tgt s) l := by
  cases tgt with
  | acc => exact ⟨[], by simp [expectedAccesses, ho, Target.operand], by simp, by simp⟩
  | mem m => exact ⟨_, of_modify ho hr hw (shift_mem_bus b base m s) (shift_mem_mem b base m s)⟩

end Performs

/-- A meaning makes the accesses listed for its instruction, and changes memory by their writes alone. -/
theorem Meaning.accesses {i : Instr} {f : State → State} (h : Meaning i f) (s : State) : ∃ l, Performs i s (f s) l := by
  cases h
  case adc hm ho | sbc hm ho | and hm ho | ora hm ho | eor hm ho | cmp hm ho | cpx hm ho | cpy hm ho | lda hm ho | ldx hm ho
      | ldy hm ho =>
    exact ⟨_, .of_load ho (by rw [hm]; rfl) (by rw [hm]; rfl) (by simp) (by simp)⟩
  case bit m hm ho => exact ⟨_, .of_load (src := .mem m) ho (by rw [hm]; rfl) (by rw [hm]; rfl) (by simp) (by simp)⟩
  case sta hm ho | stx hm ho | sty hm ho =>
    exact ⟨_, .of_store ho (by rw [hm]; rfl) (by rw [hm]; rfl) (storeReg_bus _ _ _ s) (storeReg_mem _ _ _ s)⟩
  case inc hm ho | dec hm ho =>
    exact ⟨_, .of_modify ho (by rw [hm]; rfl) (by rw [hm]; rfl) (stepMem_bus _ _ _ s) (stepMem_mem _ _ _ s)⟩
  case asl hm ho | lsr hm ho | rol hm ho | ror hm ho =>
    exact Performs.of_shift ho (by rw [hm]; rfl) (by rw [hm]; rfl)
  case branch ho => exact ⟨[], by simp [expectedAccesses, ho], by simp, by simp⟩
  case jmpInd a =>
    exact ⟨[.read a, .read ((a &&& 0xFF00#16) ||| ((a + 1#16) &&& 0x00FF#16))],
      rfl, by simp [read16page_eq], by simp [read16page_eq]⟩
  case jsr =>
    exact ⟨[.write (stackAddr s.sp) (hiByte (s.pc + 2#16)), .write (stackAddr (s.sp - 1#8)) (loByte (s.pc + 2#16))],
      rfl, by simp, by simp⟩
  case rts => exact ⟨[.read (stackAddr (s.sp + 1#8)), .read (stackAddr (s.sp + 2#8))], rfl, by simp, by simp⟩
  case rti =>
    exact ⟨[.read (stackAddr (s.sp + 1#8)), .read (stackAddr (s.sp + 2#8)), .read (stackAddr (s.sp + 3#8))],
      rfl, by simp, by simp⟩
  case brk =>
    exact ⟨[.write (stackAddr s.sp) (hiByte (s.pc + 2#16)), .write (stackAddr (s.sp - 1#8)) (loByte (s.pc + 2#16)),
        .write (stackAddr (s.sp - 2#8)) (setFlag .B true s.p), .read Config.brkVector, .read (Config.brkVector + 1#16)],
      rfl, by simp, by simp⟩
  case pha => exact ⟨[.write (stackAddr s.sp) s.a], rfl, rfl, rfl⟩
  case php => exact ⟨[.write (stackAddr s.sp) s.p], rfl, rfl, rfl⟩
  case pla | plp => exact ⟨[.read (stackAddr (s.sp + 1#8))], rfl, rfl, rfl⟩
  all_goals exact ⟨[], rfl, by simp, rfl⟩

/-- Every instruction completes, after the accesses listed for it. -/
theorem exec_accesses (i : Instr) (s : State) : ∃ t l, exec i s = .next t ∧ Performs i s t l := by
  obtain ⟨f, hf, he⟩ := exec_meaning i
  obtain ⟨l, hl⟩ := hf.accesses s
  exact ⟨f s, l, he s, hl⟩

/-- The addresses an instruction stores to are those of its listed writes. -/
theorem storedTo_eq (i : Instr) (s : State) : storedTo i s = (expectedAccesses i s).filterMap Sum.getRight? := by
  have hptr (m : MemMode) : ((pointerReads m s).map Access.shape).filterMap Sum.getRight? = [] := by cases m <;> rfl
  unfold storedTo expectedAccesses
  cases i.operand with
  | mem m => cases readsEA i.mnemonic <;> cases writesEA i.mnemonic <;> simp [hptr, List.filterMap_cons]
  | jump a => dsimp only; split <;> rfl
  | imp => cases i.mnemonic <;> rfl
  | acc | imm | ind | rel => rfl

/-- An instruction stores to no address twice: the stack bytes of one push differ (R206). -/
theorem storedTo_nodup (i : Instr) (s : State) : (storedTo i s).Nodup := by
  have h1 : stackAddr s.sp ≠ stackAddr (s.sp - 1#8) := fun e => by have := stackAddr_inj e; bv_omega
  have h2 : stackAddr s.sp ≠ stackAddr (s.sp - 2#8) := fun e => by have := stackAddr_inj e; bv_omega
  have h3 : stackAddr (s.sp - 1#8) ≠ stackAddr (s.sp - 2#8) := fun e => by have := stackAddr_inj e; bv_omega
  unfold storedTo
  cases i.operand with
  | mem m => dsimp only; split <;> simp
  | jump a => dsimp only; split <;> simp [h1]
  | imp => cases i.mnemonic <;> simp [stackStores, h1, h2, h3]
  | acc | imm | ind | rel => exact .nil

theorem Performs.writeAddrs_eq {i : Instr} {s t : State} {l : List Access} (h : Performs i s t l) :
    writeAddrs l = storedTo i s := by
  rw [storedTo_eq, ← h.shape]; rfl

/-- Settles O12: a step is one instruction on the memory the fetch left as it was, and its accesses keep the canonical form. -/
theorem stepKeepsTheInvariant : Obligations.StepKeepsTheInvariant := by
  intro s t hs hstep
  obtain ⟨i, record, -, hexec⟩ := step_next hstep
  obtain ⟨t', l, ht', hl⟩ := exec_accesses i (s.setBus record)
  cases ht'.symm.trans hexec
  rw [State.Inv, hl.mem]
  exact Memory.wf_replay hs l

/-- Settles O52: memory changes by the listed writes alone. -/
theorem memoryChangesOnlyWhereStored : Obligations.MemoryChangesOnlyWhereStored := by
  intro i s
  obtain ⟨t, l, ht, hl⟩ := exec_accesses i s
  refine ⟨t, ht, fun a ha => ?_, fun hnone => ?_⟩
  · rw [hl.mem]
    exact Memory.read_replay_other s.mem (hl.writeAddrs_eq ▸ ha)
  · rw [hl.mem]
    exact Memory.replay_of_writeAddrs_nil (hl.writeAddrs_eq.trans hnone)

end Sys2Proof.Machine
end

section
/-! SUPPORT. The bytes a fetch finds are those in memory at PC (20_memory.md R217): what the next step sees of a stored byte and of a
placed word. -/

namespace Sys2Proof.Machine

/-- The instructions a format builds are encoded as the opcode and the operand bytes the format takes (R301). -/
def FormEncodes (op : Byte) : Form → Prop
  | .f1 i => encode i = [op]
  | .f2 build => ∀ b, encode (build b) = enc2 op b
  | .f3 build => ∀ a, encode (build a) = enc3 op a

/-- Row by row of the opcode map, the "Encoding" line of the row's rule has the row's opcode. -/
theorem formEncodes_of_mem_dispatchTable : ∀ row ∈ dispatchTable, FormEncodes row.opcode row.form := by
  simp only [dispatchTable, rows0x, rows1x, rows2x, rows3x, rows4x, rows5x, rows6x, rows7x, rows8x, rows9x, rowsAx, rowsBx,
    rowsCx, rowsDx, rowsEx, rowsFx, List.forall_mem_append, List.forall_mem_cons, FormEncodes]
  simp [encode]

theorem formEncodes_of_dispatch {op : Byte} {row : Row} (h : dispatch op = some row) : FormEncodes op row.form := by
  have hop : row.opcode = op := by simpa using List.find?_some h
  exact hop ▸ formEncodes_of_mem_dispatchTable row (List.mem_of_find?_eq_some h)

/-- An instruction fetched is encoded by the bytes in memory from PC on. -/
theorem encode_of_fetch {s u : State} {i : Instr} (h : fetch s = .instr i u) : encode i = (bytesAtPC s).take i.length := by
  cases hd : dispatch (opcodeAt s) with
  | none => cases (fetch_undefined hd).symm.trans h
  | some row =>
    have hlen := formLength_of_dispatch hd
    have henc := formEncodes_of_dispatch hd
    cases hf : row.form <;> rw [hf] at hlen henc
    case f1 j =>
      cases (fetch_f1 hd hf).symm.trans h
      rw [henc, hlen]; rfl
    case f2 build =>
      cases (fetch_f2 hd hf).symm.trans h
      rw [henc, hlen]; rfl
    case f3 build =>
      cases (fetch_f3 hd hf).symm.trans h
      rw [henc, hlen]; simp [enc3, bytesAtPC]

/-- The byte an UNDEFINED fetch reports is the one at PC. -/
theorem opcode_of_fetch {s u : State} {op : Byte} (h : fetch s = .undefined op u) : op = opcodeAt s := by
  cases hd : dispatch (opcodeAt s) with
  | none => cases (fetch_undefined hd).symm.trans h; rfl
  | some row =>
    obtain ⟨i, u', hi⟩ := fetch_of_dispatch hd
    cases hi.symm.trans h

/-- An instruction has one to three bytes (R302). -/
theorem length_bounds (i : Instr) : 0 < i.length ∧ i.length ≤ 3 := by
  unfold Instr.length
  cases i.mode <;> decide

theorem getElem?_bytesAtPC (s : State) {k : Nat} (hk : k < 3) :
    (bytesAtPC s)[k]? = some (s.mem.read (s.pc + BitVec.ofNat 16 k).toNat) := by
  have hcases : k = 0 ∨ k = 1 ∨ k = 2 := by omega
  rcases hcases with rfl | rfl | rfl
  · simp [bytesAtPC]
  · rfl
  · rfl

/-- Byte `k` of the encoding of the instruction fetched is the byte in memory `k` places from PC. -/
theorem getElem?_encode_of_fetch {s u : State} {i : Instr} (h : fetch s = .instr i u) {k : Nat} (hk : k < i.length) :
    (encode i)[k]? = some (s.mem.read (s.pc + BitVec.ofNat 16 k).toNat) := by
  have h3 := (length_bounds i).2
  rw [encode_of_fetch h, List.getElem?_take_of_lt hk, getElem?_bytesAtPC s (by omega)]

theorem head?_encode_of_fetch {s u : State} {i : Instr} (h : fetch s = .instr i u) :
    (encode i).head? = some (opcodeAt s) := by
  simpa [List.head?_eq_getElem?] using getElem?_encode_of_fetch h (length_bounds i).1

/-- A store of a register writes that register's byte at EA, and PC is past the instruction. -/
theorem exec_store {i : Instr} {m : MemMode} {r : Reg} (s : State) (ho : i.operand = .mem m)
    (hr : (i.mnemonic = .STA ∧ r = .A) ∨ (i.mnemonic = .STX ∧ r = .X) ∨ (i.mnemonic = .STY ∧ r = .Y)) :
    exec i s = .next (storeReg (reg r s) i.baseCycles m s) := by
  rcases hr with ⟨hm, rfl⟩ | ⟨hm, rfl⟩ | ⟨hm, rfl⟩
  · exact exec_sta s hm ho
  · exact exec_stx s hm ho
  · exact exec_sty s hm ho

/-- Settles O50: each address stored to is written once, so it holds the byte written, and the next fetch finds the bytes that
memory then holds at PC. -/
theorem storedByteIsFetchedNext : Obligations.StoredByteIsFetchedNext := by
  refine ⟨fun i s hs => ?anyWriter, fun i m s hs ho r hr hea => ?store⟩
  case anyWriter =>
    obtain ⟨t, l, ht, hl⟩ := exec_accesses i s
    have hread {a : Addr} {v : Byte} (h : Access.write a v ∈ l) : t.mem.read a.toNat = v := by
      rw [hl.mem]
      exact Memory.read_replay_written hs (hl.writeAddrs_eq ▸ storedTo_nodup i s) h
    refine ⟨t, l, ht, hl.bus, fun a ha => ?_, fun k v h => ?_⟩
    · obtain ⟨v, hv⟩ := mem_writeAddrs.mp (hl.writeAddrs_eq.symm ▸ ha)
      exact ⟨v, hv, hread hv⟩
    · split
      case h_1 op u hf =>
        rintro rfl
        simpa [opcode_of_fetch hf] using hread h
      case h_2 j u hf =>
        intro hk
        rw [getElem?_encode_of_fetch hf hk, hread h]
  case store =>
    refine ⟨_, exec_store s ho hr, ?_⟩
    have hop : opcodeAt (storeReg (reg r s) i.baseCycles m s) = reg r s := by
      simp only [opcodeAt, storeReg_pc, storeReg_mem, memLength_eq ho, hea]
      exact Memory.read_write_same hs _ _
    split
    case h_1 op u hf => exact (opcode_of_fetch hf).trans hop
    case h_2 j u hf => rw [head?_encode_of_fetch hf, hop]

/-! A placed word. -/

theorem placeWord_mem (s : State) (nbits w : Nat) :
    (placeWord s nbits w).mem =
      ((s.mem.write s.pc.toNat (byteOf (w % 2 ^ nbits) 0)).write (s.pc + 1#16).toNat (byteOf (w % 2 ^ nbits) 1)).write
        (s.pc + 2#16).toNat (byteOf (w % 2 ^ nbits) 2) := rfl

/-- The bytes at PC are the three bytes placed there: their addresses differ, also where they wrap (R105). -/
theorem bytesAtPC_placeWord {s : State} (hs : s.Inv) (nbits w : Nat) :
    bytesAtPC (placeWord s nbits w) = [byteOf (w % 2 ^ nbits) 0, byteOf (w % 2 ^ nbits) 1, byteOf (w % 2 ^ nbits) 2] := by
  have h01 : s.pc.toNat ≠ (s.pc + 1#16).toNat := by bv_omega
  have h02 : s.pc.toNat ≠ (s.pc + 2#16).toNat := by bv_omega
  have h12 : (s.pc + 1#16).toNat ≠ (s.pc + 2#16).toNat := by bv_omega
  have hw0 := Memory.wf_write hs s.pc (byteOf (w % 2 ^ nbits) 0)
  have hw1 := Memory.wf_write hw0 (s.pc + 1#16) (byteOf (w % 2 ^ nbits) 1)
  have hpc : (placeWord s nbits w).pc = s.pc := rfl
  rw [bytesAtPC, placeWord_mem, hpc, Memory.read_write_same hw1, Memory.read_write_other _ _ h12,
    Memory.read_write_same hw0, Memory.read_write_other _ _ h02, Memory.read_write_other _ _ h01, Memory.read_write_same hs]

/-- A table word decodes to an instruction only if its three bytes do. -/
theorem decode_of_decodeTableWord {nbits w : Nat} {i : Instr} (h : decodeTableWord nbits w = some i) :
    ∃ rest, decode [byteOf (w % 2 ^ nbits) 0, byteOf (w % 2 ^ nbits) 1, byteOf (w % 2 ^ nbits) 2] = .ok (i, rest) := by
  simp only [decodeTableWord] at h
  split at h
  case h_1 j rest hd => cases h; exact ⟨rest, hd⟩
  case h_2 => cases h

/-- Settles O11: the bytes placed at PC decode to the row's instruction, so the step runs it; the host writes memory alone. -/
theorem placedWordIsTheNextInstruction : Obligations.PlacedWordIsTheNextInstruction := by
  intro s nbits w i hs hi
  obtain ⟨rest, hd⟩ := decode_of_decodeTableWord hi
  have hbytes : decode (bytesAtPC (s.withFetchWord nbits w)) = .ok (i, rest) :=
    (congrArg decode (bytesAtPC_placeWord hs nbits w)).trans hd
  refine ⟨stepRunsTheDecodedInstruction _ i rest hbytes, rfl, rfl, fun r _ => ?_, rfl⟩
  cases r <;> rfl

end Sys2Proof.Machine
end

section
/-! SUPPORT. The machine under any BUS_READ (00_scope.md R10; 20_memory.md R201): an operation asks the host at the addresses of its
recorded reads and nowhere else. -/

namespace Sys2Proof.Machine

/-- The host answers a read of `a` as plain RAM does, whatever the state (R202). -/
def AnswersAsRam (bus : BusRead) (a : Addr) : Prop := ∀ u, bus u a = plainRam u a

section Congr

variable {bus : BusRead} {s : State}

theorem memRead_congr {a : Addr} (h : AnswersAsRam bus a) : memRead a s bus = memRead a s := by
  rw [memRead_any, memRead_any, h]

theorem readPair_congr {lo hi : Addr} (hlo : AnswersAsRam bus lo) (hhi : AnswersAsRam bus hi) :
    readPair lo hi s bus = readPair lo hi s := by
  simp only [readPair, memRead_congr hlo, memRead_congr hhi]

theorem pull_congr (h : AnswersAsRam bus (stackAddr (s.sp + 1#8))) : pull s bus = pull s := memRead_congr h

theorem pull16_congr (h1 : AnswersAsRam bus (stackAddr (s.sp + 1#8))) (h2 : AnswersAsRam bus (stackAddr (s.sp + 2#8))) :
    pull16 s bus = pull16 s := by
  have hhi : AnswersAsRam bus (stackAddr ((pull s).st.sp + 1#8)) := by simpa [sp_add_two] using h2
  simp only [pull16, pull_congr h1, pull_congr hhi]

theorem resolve_congr {m : MemMode} (h : ∀ a, .read a ∈ pointerReads m s → AnswersAsRam bus a) :
    resolve m s bus = resolve m s := by
  cases m with
  | indx z | indy z => simp only [resolve, read16zp, readPair_congr (h _ (.head _)) (h _ (.tail _ (.head _)))]
  | _ => rfl

theorem load_congr {src : Source} (h : ∀ a, .read a ∈ loadReads src s → AnswersAsRam bus a) :
    load src s bus = load src s := by
  cases src with
  | imm v => rfl
  | mem m =>
    have hptr : resolve m s bus = resolve m s := resolve_congr fun a ha => h a (by simp [loadReads, ha])
    have hea : AnswersAsRam bus (resolve m s).ea := h _ (by simp [loadReads])
    simp only [load, hptr, memRead_congr hea]

theorem storeAt_congr {m : MemMode} (v : Byte) (h : ∀ a, .read a ∈ pointerReads m s → AnswersAsRam bus a) :
    storeAt m v s bus = storeAt m v s := by
  simp only [storeAt, resolve_congr h]

theorem modifyMem_congr {m : MemMode} (f : Byte → Byte → Byte × Byte)
    (h : ∀ a, .read a ∈ loadReads (.mem m) s → AnswersAsRam bus a) : modifyMem m f s bus = modifyMem m f s := by
  have hptr : resolve m s bus = resolve m s := resolve_congr fun a ha => h a (by simp [loadReads, ha])
  have hea : AnswersAsRam bus (resolve m s).ea := h _ (by simp [loadReads])
  simp only [modifyMem, hptr, memRead_congr hea]

end Congr

/-- `Asks bus s r r'`: under plain RAM an operation takes `s` to `r`, and under the host's read `bus` to `r'`. Both are next states,
and they are the same one where the host answers as plain RAM at each read the record of `r` has gained. -/
def Asks (bus : BusRead) (s : State) (r r' : Result) : Prop :=
  ∃ t t' l, r = .next t ∧ r' = .next t' ∧ t.bus = s.bus ++ l ∧ ((∀ a, .read a ∈ l → AnswersAsRam bus a) → t' = t)

/-- An instruction that reads nothing after its fetch runs by `exec` under any host. -/
theorem asks_exec (bus : BusRead) (i : Instr) (s : State) : Asks bus s (exec i s) (exec i s) := by
  obtain ⟨t, l, ht, hl⟩ := exec_accesses i s
  exact ⟨t, t, l, ht, ht, hl.bus, fun _ => rfl⟩

section Asks

variable (adj : DecAdj) (bus : BusRead) (i : Instr) (s : State)

/-- The read class asks at the reads of its operand. -/
theorem asks_readingWith (src : Source) : Asks bus s (readingWith adj plainRam i src s) (readingWith adj bus i src s) := by
  unfold readingWith
  split
  case h_1 => exact ⟨_, _, _, rfl, rfl, adcWith_bus adj _ src s, fun h => by simp only [adcWith, load_congr h]⟩
  case h_2 => exact ⟨_, _, _, rfl, rfl, sbcWith_bus adj _ src s, fun h => by simp only [sbcWith, load_congr h]⟩
  case h_3 | h_4 | h_5 => exact ⟨_, _, _, rfl, rfl, logical_bus _ _ src s, fun h => by simp only [logical, load_congr h]⟩
  case h_6 | h_7 | h_8 =>
    exact ⟨_, _, _, rfl, rfl, compareReg_bus _ _ src s, fun h => by simp only [compareReg, load_congr h]⟩
  case h_9 => exact ⟨_, _, _, rfl, rfl, loadRegA_bus _ src s, fun h => by simp only [loadReg, load_congr h]⟩
  case h_10 => exact ⟨_, _, _, rfl, rfl, loadRegX_bus _ src s, fun h => by simp only [loadReg, load_congr h]⟩
  case h_11 => exact ⟨_, _, _, rfl, rfl, loadRegY_bus _ src s, fun h => by simp only [loadReg, load_congr h]⟩
  case h_12 => exact asks_exec bus i s

/-- A store asks at the pointer reads of its mode. -/
theorem asks_storeReg (v : Byte) (base : Nat) (m : MemMode) :
    Asks bus s (.next (storeReg v base m s)) (.next (storeReg v base m s bus)) := by
  refine ⟨_, _, pointerReads m s ++ [.write (resolve m s).ea v], rfl, rfl, by simp, fun h => ?_⟩
  have hstore : storeAt m v s bus = storeAt m v s := storeAt_congr v fun a ha => h a (by simp [ha])
  simp only [storeReg, hstore]

/-- A read-modify-write asks where the read class does. -/
theorem asks_finish_modifyMem (f : Byte → Byte → Byte × Byte) (len base : Nat) (m : MemMode) :
    Asks bus s (.next (finish len base (modifyMem m f s))) (.next (finish len base (modifyMem m f s bus))) :=
  ⟨_, _, loadReads (.mem m) s ++ [.write (resolve m s).ea (f (s.mem.read (resolve m s).ea.toNat) s.p).1], rfl, rfl,
    by simp [loadReads], fun h => by rw [modifyMem_congr f fun a ha => h a (by simp [ha])]⟩

/-- A memory operand is BIT's, a store's, of the read-modify-write class or of the read class (R209). -/
theorem asks_memoryWith (m : MemMode) : Asks bus s (memoryWith adj plainRam i m s) (memoryWith adj bus i m s) := by
  unfold memoryWith
  split
  case h_1 => exact ⟨_, _, _, rfl, rfl, bitTest_bus _ m s, fun h => by simp only [bitTest, load_congr h]⟩
  case h_2 | h_3 | h_4 => exact asks_storeReg bus s _ _ m
  case h_5 | h_6 | h_7 | h_8 | h_9 | h_10 => exact asks_finish_modifyMem bus s _ _ _ m
  case h_11 => exact asks_readingWith adj bus i s (.mem m)

theorem asks_jumpIndirect (ptr : Addr) : Asks bus s (.next (jumpIndirect ptr s)) (.next (jumpIndirect ptr s bus)) :=
  ⟨_, _, [.read ptr, .read ((ptr &&& 0xFF00#16) ||| ((ptr + 1#16) &&& 0x00FF#16))], rfl, rfl, by simp [read16page_eq],
    fun h => by simp only [jumpIndirect, read16page, readPair_congr (h _ (.head _)) (h _ (.tail _ (.head _)))]⟩

theorem asks_returnSub : Asks bus s (.next (returnSub s)) (.next (returnSub s bus)) :=
  ⟨_, _, [.read (stackAddr (s.sp + 1#8)), .read (stackAddr (s.sp + 2#8))], rfl, rfl, by simp,
    fun h => by simp only [returnSub, pull16_congr (h _ (.head _)) (h _ (.tail _ (.head _)))]⟩

theorem asks_trapReturn : Asks bus s (.next (charge 6 (trapReturn s))) (.next (charge 6 (trapReturn s bus))) := by
  refine ⟨_, _, _, rfl, rfl, trapReturn_bus s, fun h => ?_⟩
  have hp : pull s bus = pull s := pull_congr (h _ (.head _))
  have ht : pull16 ((pull s).st.setP (pull s).val) bus = pull16 ((pull s).st.setP (pull s).val) :=
    pull16_congr (by simpa [sp_add_two] using h _ (.tail _ (.head _)))
      (by simpa [sp_add_three] using h _ (.tail _ (.tail _ (.head _))))
  simp only [trapReturn, hp, ht]

theorem asks_trapEntry (ret : Addr) :
    Asks bus s (.next (charge 7 (trapEntry ret s))) (.next (charge 7 (trapEntry ret s bus))) := by
  refine ⟨_, _, _, rfl, rfl, trapEntry_bus ret s, fun h => ?_⟩
  have hlo : AnswersAsRam bus Config.brkVector := h _ (by simp)
  have hhi : AnswersAsRam bus (Config.brkVector + 1#16) := h _ (by simp)
  simp only [trapEntry, read16, readPair_congr hlo hhi]

theorem asks_impliedWith : Asks bus s (impliedWith plainRam i s) (impliedWith bus i s) := by
  unfold impliedWith
  split
  case h_1 => exact asks_returnSub bus s
  case h_2 => exact asks_trapReturn bus s
  case h_3 => exact asks_trapEntry bus s _
  case h_4 => exact ⟨_, _, [_], rfl, rfl, rfl, fun h => by simp only [pullA, pull_congr (h _ (.head _))]⟩
  case h_5 => exact ⟨_, _, [_], rfl, rfl, rfl, fun h => by simp only [pullP, pull_congr (h _ (.head _))]⟩
  case h_6 => exact asks_exec bus i s

/-- Every instruction, under any DEC_ADJ. -/
theorem asks_execWith : Asks bus s (execWith adj i s) (execWith adj i s bus) := by
  unfold execWith
  cases i.operand with
  | imm v => exact asks_readingWith adj bus i s (.imm v)
  | mem m => exact asks_memoryWith adj bus i s m
  | ind ptr => exact asks_jumpIndirect bus s ptr
  | imp => exact asks_impliedWith bus i s
  | acc | rel | jump => exact asks_exec bus i s

end Asks

/-- A fetch asks at PC and at its recorded reads. -/
theorem fetch_congr {bus : BusRead} {s : State} (hpc : AnswersAsRam bus s.pc)
    (h : ∀ i u, fetch s = .instr i u → ∀ a, .read a ∈ u.bus → AnswersAsRam bus a) : fetch s bus = fetch s := by
  cases hd : dispatch (opcodeAt s) with
  | none => simp [fetch, memRead_congr hpc, hd]
  | some row =>
    cases hf : row.form with
    | f1 i => simp [fetch, memRead_congr hpc, hd, hf]
    | f2 build =>
      have h1 := h _ _ (fetch_f2 hd hf) (s.pc + 1#16) (by simp)
      simp [fetch, memRead_congr hpc, hd, hf, memRead_congr h1]
    | f3 build =>
      have h1 := h _ _ (fetch_f3 hd hf) (s.pc + 1#16) (by simp)
      have h2 := h _ _ (fetch_f3 hd hf) (s.pc + 2#16) (by simp)
      simp [fetch, memRead_congr hpc, hd, hf, readPair_congr h1 h2]

/-- Under any host, an opcode the table does not have ends the step. -/
theorem stepWith_of_undefined (adj : DecAdj) {bus : BusRead} {s : State} (h : dispatch (bus (s.setBus []) s.pc).1 = none) :
    stepWith adj s bus = .fault (.unknownOpcode (bus (s.setBus []) s.pc).1) := by
  simp [stepWith, fetch, memRead_any, h]

/-- Under any host, an opcode the table has is fetched as an instruction. -/
theorem fetch_instr_of_defined {bus : BusRead} {s : State} (h : dispatch (bus (s.setBus []) s.pc).1 ≠ none) :
    ∃ i u, fetch s bus = .instr i u := by
  obtain ⟨row, hd⟩ := Option.ne_none_iff_exists'.mp h
  cases hf : row.form <;> simp [fetch, memRead_any, hd, hf]

/-- A step under a host that answers as plain RAM wherever the plain RAM step reads. -/
theorem stepWith_congr (adj : DecAdj) {bus : BusRead} {s : State} (hpc : AnswersAsRam bus s.pc)
    (h : ∀ t, stepWith adj s = .next t → ∀ a, .read a ∈ t.bus → AnswersAsRam bus a) :
    stepWith adj s bus = stepWith adj s := by
  have hexec {i : Instr} {u : State} (hf : fetch s = .instr i u) :
      (∀ a, .read a ∈ u.bus → AnswersAsRam bus a) ∧ execWith adj i u bus = execWith adj i u := by
    obtain ⟨t, t', l, ht, ht', hbus, hsame⟩ := asks_execWith adj bus i u
    have hreads := h t (by simp only [stepWith, hf, ht])
    rw [hbus] at hreads
    have htt : t' = t := hsame fun a ha => hreads a (List.mem_append_right _ ha)
    exact ⟨fun a ha => hreads a (List.mem_append_left _ ha), by rw [ht', ht, htt]⟩
  have hfetch : fetch s bus = fetch s := fetch_congr hpc fun i u hf => (hexec hf).1
  rcases fetch_cases s with ⟨op, l, hf⟩ | ⟨i, l, hf⟩
  · simp only [stepWith, hfetch, hf]
  · simp only [stepWith, hfetch, hf, (hexec hf).2]

/-- Settles O56: the record of every meaning is the listed one; each operation asks the host at its recorded reads alone; and what
it finds there is the host's answer. -/
theorem accessesAreThoseListed : Obligations.AccessesAreThoseListed := by
  refine ⟨fun i s => ?listed, fun adj bus s h => ?plainRamStep,
    fun adj bus s => ⟨?undefined, fun hd => ?defined, fun a => ?lda⟩⟩
  case listed =>
    obtain ⟨t, l, ht, hl⟩ := exec_accesses i s
    exact ⟨t, l, ht, hl.bus, hl.shape⟩
  case plainRamStep => exact stepWith_congr adj (h _ (.inl rfl)) fun t ht a ha => h a (.inr ⟨t, ht, ha⟩)
  case undefined => exact stepWith_of_undefined adj
  case defined =>
    obtain ⟨i, u, hf⟩ := fetch_instr_of_defined hd
    obtain ⟨-, t', -, -, ht', -⟩ := asks_execWith adj bus i u
    exact ⟨t', by simp only [stepWith, hf, ht']⟩
  case lda => exact ⟨_, rfl, rfl, rfl, rfl⟩

end Sys2Proof.Machine
end

section
/-! SUPPORT. Decoding and encoding undo each other (30_encoding.md R300 to R303): every instruction is built by a row of the opcode
map, a row is found by its opcode, and its format takes from the bytes what the encoding puts after the opcode. -/

namespace Sys2Proof
open Machine

/-- The format builds the instruction from some operand (R301). -/
def Form.Builds : Form → Instr → Prop
  | .f1 j, i => i = j
  | .f2 build, i => ∃ b, i = build b
  | .f3 build, i => ∃ a, i = build a

/-- Every instruction is built by the row of its mnemonic and mode. -/
theorem exists_row_builds (i : Instr) : ∃ row, i.row = some row ∧ row.form.Builds i := by
  cases i <;> exact ⟨_, rfl, by simp [Form.Builds]⟩

/-- The opcodes listed are in increasing order, from a least one on. -/
def IncreasingFrom : Nat → List Byte → Prop
  | _, [] => True
  | least, op :: l => least ≤ op.toNat ∧ IncreasingFrom (op.toNat + 1) l

theorem IncreasingFrom.le {least : Nat} {l : List Byte} (h : IncreasingFrom least l) : ∀ op ∈ l, least ≤ op.toNat := by
  induction l generalizing least with
  | nil => nofun
  | cons op l ih =>
    obtain ⟨hop, hl⟩ := h
    intro op' hmem
    rcases List.mem_cons.mp hmem with rfl | hmem
    · exact hop
    · have := ih hl op' hmem
      omega

/-- A list in increasing order names each opcode once. -/
theorem IncreasingFrom.nodup {least : Nat} {l : List Byte} (h : IncreasingFrom least l) : l.Nodup := by
  induction l generalizing least with
  | nil => exact .nil
  | cons op l ih =>
    refine List.nodup_cons.mpr ⟨fun hmem => ?_, ih h.2⟩
    have := IncreasingFrom.le h.2 op hmem
    omega

/-- The opcode map lists its opcodes in increasing order (R311). -/
theorem opcodes_increasing : IncreasingFrom 0 (dispatchTable.map Row.opcode) := by
  simp [IncreasingFrom, dispatchTable, rows0x, rows1x, rows2x, rows3x, rows4x, rows5x, rows6x, rows7x, rows8x, rows9x, rowsAx,
    rowsBx, rowsCx, rowsDx, rowsEx, rowsFx]

/-- Where no two rows have the same opcode, a row is the first with its opcode. -/
theorem find?_opcode_of_mem {rows : List Row} (hnodup : (rows.map Row.opcode).Nodup) {row : Row} (h : row ∈ rows) :
    rows.find? (fun r => r.opcode == row.opcode) = some row := by
  induction rows with
  | nil => cases h
  | cons r rows ih =>
    obtain ⟨hr, hrows⟩ := List.nodup_cons.mp hnodup
    rcases List.mem_cons.mp h with rfl | hmem
    · exact List.find?_cons_of_pos (beq_self_eq_true _)
    · have hne : r.opcode ≠ row.opcode := fun e => hr (e ▸ List.mem_map_of_mem hmem)
      exact (List.find?_cons_of_neg (by simpa only [beq_iff_eq] using hne)).trans (ih hrows hmem)

/-- A row of the opcode map is found by its own opcode. -/
theorem dispatch_of_mem {row : Row} (h : row ∈ dispatchTable) : dispatch row.opcode = some row :=
  find?_opcode_of_mem opcodes_increasing.nodup h

/-- The encoding of an instruction that a row builds decodes by that row, format by format. -/
theorem decode_encode_of_builds {row : Row} {i : Instr} (hrow : row ∈ dispatchTable) (hi : row.form.Builds i)
    (rest : List Byte) : decode (encode i ++ rest) = .ok (i, rest) := by
  have hd := dispatch_of_mem hrow
  have henc := formEncodes_of_mem_dispatchTable row hrow
  cases hf : row.form <;> rw [hf] at hi henc
  case f1 j =>
    cases hi
    rw [henc]
    simp [decode, hd, hf]
  case f2 build =>
    obtain ⟨b, rfl⟩ := hi
    rw [henc b]
    simp [decode, enc2, hd, hf]
  case f3 build =>
    obtain ⟨a, rfl⟩ := hi
    rw [henc a]
    simp [decode, enc3, hd, hf]

/-- Settles O2: the row that builds the instruction decodes its encoding. -/
theorem decodeOfEncodeIsTheInstruction : Obligations.DecodeOfEncodeIsTheInstruction := by
  intro i rest
  obtain ⟨row, hfind, hi⟩ := exists_row_builds i
  exact decode_encode_of_builds (List.mem_of_find?_eq_some hfind) hi rest

/-- Settles O3: bytes decode by the row of their first byte, and the instructions of that row are encoded with that opcode. -/
theorem decodedBytesAreTheEncoding : Obligations.DecodedBytesAreTheEncoding := by
  intro bs rest i h
  unfold decode at h
  split at h
  case h_1 => cases h
  case h_2 op bytes =>
    split at h
    case h_1 => cases h
    case h_2 row hd =>
      have henc := formEncodes_of_dispatch hd
      split at h
      case h_1 j r hf =>
        cases h
        rw [hf] at henc
        rw [henc]; rfl
      case h_2 build b r hf =>
        cases h
        rw [hf] at henc
        rw [henc b]; rfl
      case h_3 build lo hi r hf =>
        cases h
        rw [hf] at henc
        rw [henc (wordOf hi lo)]; simp [enc3]
      case h_4 => cases h

end Sys2Proof
end

section
/-! SUPPORT. The opcode space (30_encoding.md R310 to R314): the UNDEFINED values are those the opcode map leaves out, and a row
determines everything else about the instructions it builds. -/

namespace Sys2Proof
open Machine

/-- A set of opcodes as a number of 256 bits: bit `op` is set for each opcode `op` listed. -/
def opcodeBits (l : List Byte) : Nat := l.foldr (fun op bits => 2 ^ op.toNat ||| bits) 0

theorem testBit_opcodeBits (l : List Byte) (op : Byte) : (opcodeBits l).testBit op.toNat = decide (op ∈ l) := by
  induction l with
  | nil => simp [opcodeBits]
  | cons op' l ih =>
    have hbits : opcodeBits (op' :: l) = 2 ^ op'.toNat ||| opcodeBits l := rfl
    simp [hbits, ih, Nat.testBit_two_pow, ← BitVec.toNat_eq, eq_comm]

/-- The UNDEFINED values and the opcodes of the opcode map are complements of each other (R313). -/
theorem opcodeBits_undefined_xor_defined :
    opcodeBits undefinedOpcodes ^^^ opcodeBits (dispatchTable.map Row.opcode) = 2 ^ 256 - 1 := by
  simp [opcodeBits, undefinedOpcodes, dispatchTable, rows0x, rows1x, rows2x, rows3x, rows4x, rows5x, rows6x, rows7x, rows8x,
    rows9x, rowsAx, rowsBx, rowsCx, rowsDx, rowsEx, rowsFx]

theorem undefinedOpcodes_increasing : IncreasingFrom 0 undefinedOpcodes := by
  simp [IncreasingFrom, undefinedOpcodes]

theorem dispatch_eq_none_iff (op : Byte) : dispatch op = none ↔ op ∉ dispatchTable.map Row.opcode := by
  simp [dispatch, List.find?_eq_none]

/-- An opcode is UNDEFINED exactly where the opcode map has no row: its bit is set in one of the two complements alone. -/
theorem mem_undefinedOpcodes_iff (op : Byte) : op ∈ undefinedOpcodes ↔ dispatch op = none := by
  have hbit := congrArg (Nat.testBit · op.toNat) opcodeBits_undefined_xor_defined
  simp only [Nat.testBit_xor, testBit_opcodeBits, Nat.testBit_two_pow_sub_one, decide_eq_true op.isLt, bne_iff_ne, ne_eq,
    decide_eq_decide] at hbit
  rw [dispatch_eq_none_iff]
  exact (Decidable.not_iff_comm.mp (Decidable.not_iff.mp hbit)).symm

/-- The decoder rejects an opcode byte as unknown exactly where the opcode map has no row, whatever follows it. -/
theorem decode_eq_unknownOpcode_iff (op : Byte) (rest : List Byte) :
    decode (op :: rest) = .error (.unknownOpcode op) ↔ dispatch op = none := by
  cases hd : dispatch op with
  | none => simp [decode, hd]
  | some row =>
    simp only [decode, hd]
    split <;> simp

/-- Settles O4: the list is in increasing order, so it names each value once, and it is the complement of the opcode map. -/
theorem undefinedOpcodesAreTheListed105 : Obligations.UndefinedOpcodesAreTheListed105 := by
  refine ⟨rfl, undefinedOpcodes_increasing.nodup, fun op rest => ⟨mem_undefinedOpcodes_iff op, ?_⟩⟩
  rw [mem_undefinedOpcodes_iff, decode_eq_unknownOpcode_iff]

/-- Settles O1: the words are encodings of their instructions; the other three are rejected at the opcode, at the missing byte and
at once. -/
theorem wordsOfEveryFamilyDecode : Obligations.WordsOfEveryFamilyDecode :=
  have back := decodeOfEncodeIsTheInstruction
  ⟨back (.adcImm 0x50#8) [], back (.sbcIndy 0x20#8) [0xEA#8], back (.bitAbs 0x1234#16) [], back .rorAcc [0x00#8],
    back (.incAbsx 0x12FF#16) [], back .dex [], back (.cmpIndx 0x40#8) [], back (.bne 0xFA#8) [], back (.jmpInd 0x30FF#16) [],
    back (.jsr 0x0310#16) [], back .brk [], back .plp [], back .txs [], back (.ldxZpy 0xF0#8) [], back (.staAbsy 0x0200#16) [],
    rfl, rfl, rfl⟩

/-- An instruction is encoded as its row's opcode and then the operand bytes of its mode. -/
theorem encode_of_builds {row : Row} {i : Instr} (hrow : row ∈ dispatchTable) (hi : row.form.Builds i) :
    ∃ operands, encode i = row.opcode :: operands ∧ operands.length + 1 = i.length := by
  have henc := formEncodes_of_mem_dispatchTable row hrow
  have hlen := formLength_of_mem_dispatchTable row hrow
  cases hf : row.form <;> rw [hf] at hi henc hlen
  case f1 j =>
    cases hi
    exact ⟨[], henc, hlen.symm⟩
  case f2 build =>
    obtain ⟨b, rfl⟩ := hi
    exact ⟨_, henc b, (hlen b).symm⟩
  case f3 build =>
    obtain ⟨a, rfl⟩ := hi
    exact ⟨_, henc a, (hlen a).symm⟩

/-- A row that builds an instruction is the instruction's own row: both encode it, so they have the same opcode. -/
theorem row_of_builds {row : Row} {i : Instr} (hrow : row ∈ dispatchTable) (hi : row.form.Builds i) : i.row = some row := by
  obtain ⟨row', hfind, hi'⟩ := exists_row_builds i
  have hrow' := List.mem_of_find?_eq_some hfind
  obtain ⟨operands, henc, -⟩ := encode_of_builds hrow hi
  obtain ⟨operands', henc', -⟩ := encode_of_builds hrow' hi'
  have hop : row'.opcode = row.opcode := (List.cons.inj (henc'.symm.trans henc)).1
  rw [hfind, ← dispatch_of_mem hrow', hop, dispatch_of_mem hrow]

theorem mnemonic_mode_of_row {row : Row} {i : Instr} (h : i.row = some row) : i.mnemonic = row.mnemonic ∧ i.mode = row.mode := by
  have hkey := List.find?_some h
  simp only [Bool.and_eq_true, beq_iff_eq] at hkey
  exact ⟨hkey.1.symm, hkey.2.symm⟩

/-- Each row is in a mode its mnemonic's rule lists, and has the length of that mode (R302). -/
theorem modes_length_of_mem_dispatchTable :
    ∀ row ∈ dispatchTable, row.mnemonic.modes.contains row.mode = true ∧ row.mode.length = row.length := by
  simp only [dispatchTable, List.forall_mem_append]
  and_intros <;> decide

/-- Settles O5: the row that builds an instruction is the one its mnemonic, mode and costs are looked up in. -/
theorem opcodeRowsBuildTheirInstruction : Obligations.OpcodeRowsBuildTheirInstruction := by
  intro row hrow i hbuilt
  have hi : row.form.Builds i := by
    cases hf : row.form <;> rw [hf] at hbuilt <;> exact hbuilt
  have hfind := row_of_builds hrow hi
  obtain ⟨hm, hmode⟩ := mnemonic_mode_of_row hfind
  obtain ⟨hmodes, hlength⟩ := modes_length_of_mem_dispatchTable row hrow
  obtain ⟨operands, henc, hlen⟩ := encode_of_builds hrow hi
  refine ⟨hm, hmode, ?wf, ?length, ?opcode, ?cycles, ?pageCross⟩
  case wf => rw [Instr.wf, hm, hmode, hmodes]
  case length => rw [henc, List.length_cons, hlen, Instr.length, hmode, hlength]
  case opcode => rw [henc, List.head?_cons]
  case cycles => simp [Instr.baseCycles, hfind]
  case pageCross => simp [Instr.pageCross, hfind]

end Sys2Proof
end

section
/-! SUPPORT. Written instructions (30_encoding.md R340): the instruction a line stands for, the offset of a written branch, and the
zero-page form. -/

namespace Sys2Proof
open Machine

/-- The instruction a format builds from the number in the operand field. -/
def Form.instr (n : Nat) : Form → Instr
  | .f1 i => i
  | .f2 build => build (BitVec.ofNat 8 n)
  | .f3 build => build (BitVec.ofNat 16 n)

theorem Form.builds_instr (n : Nat) (form : Form) : form.Builds (form.instr n) := by
  cases form with
  | f1 i => rfl
  | f2 build => exact ⟨_, rfl⟩
  | f3 build => exact ⟨_, rfl⟩

/-- The operand that the number in the operand field stands for, mode by mode (R322 to R330, R520, R522). -/
def fieldOperand (m : Mnemonic) (n : Nat) : Mode → Operand
  | .imp => .imp
  | .acc => .acc
  | .imm => .imm (BitVec.ofNat 8 n)
  | .zp => .mem (.zp (BitVec.ofNat 8 n))
  | .zpx => .mem (.zpx (BitVec.ofNat 8 n))
  | .zpy => .mem (.zpy (BitVec.ofNat 8 n))
  | .abs => if m = .JMP ∨ m = .JSR then .jump (BitVec.ofNat 16 n) else .mem (.abs (BitVec.ofNat 16 n))
  | .absx => .mem (.absx (BitVec.ofNat 16 n))
  | .absy => .mem (.absy (BitVec.ofNat 16 n))
  | .ind => .ind (BitVec.ofNat 16 n)
  | .indx => .mem (.indx (BitVec.ofNat 8 n))
  | .indy => .mem (.indy (BitVec.ofNat 8 n))
  | .rel => .rel (BitVec.ofNat 8 n)

/-- Row by row of the opcode map, the number becomes the operand of the row's mode. -/
theorem operand_instr_of_mem_dispatchTable (n : Nat) :
    ∀ row ∈ dispatchTable, (row.form.instr n).operand = fieldOperand row.mnemonic n row.mode := by
  simp only [dispatchTable, rows0x, rows1x, rows2x, rows3x, rows4x, rows5x, rows6x, rows7x, rows8x, rows9x, rowsAx, rowsBx,
    rowsCx, rowsDx, rowsEx, rowsFx, List.forall_mem_append, List.forall_mem_cons]
  simp [Form.instr, Instr.operand, fieldOperand]

/-- The opcode map has a row for every mode a mnemonic's rule lists. -/
theorem exists_row_of_mem_modes {m : Mnemonic} {mode : Mode} (h : mode ∈ m.modes) :
    ∃ row, dispatchTable.find? (fun r => r.mnemonic == m && r.mode == mode) = some row := by
  rw [← Option.isSome_iff_exists]
  cases m <;> revert mode <;> decide

theorem Line.wf_iff (l : Line) : l.wf = true ↔ l.mode ∈ l.mnemonic.modes ∧ l.operandOk = true ∧ l.reachOk = true := by
  simp [Line.wf, Line.modeOk, and_assoc]

theorem Line.instr_eq {l : Line} {row : Row} (h : l.wf = true)
    (hrow : dispatchTable.find? (fun r => r.mnemonic == l.mnemonic && r.mode == l.mode) = some row) :
    l.instr = some (row.form.instr l.field) := by
  rw [Line.instr, if_pos h, hrow, Option.map_some]
  cases row.form <;> rfl

/-- A well-formed line stands for an instruction of its mnemonic and mode, with the operand its operand field stands for. -/
theorem Line.exists_instr {l : Line} (h : l.wf = true) :
    ∃ i, l.instr = some i ∧ i.mnemonic = l.mnemonic ∧ i.mode = l.mode ∧ i.operand = fieldOperand l.mnemonic l.field l.mode := by
  obtain ⟨row, hfind⟩ := exists_row_of_mem_modes (l.wf_iff.mp h).1
  have hrow := List.mem_of_find?_eq_some hfind
  have hkey := List.find?_some hfind
  simp only [Bool.and_eq_true, beq_iff_eq] at hkey
  obtain ⟨hm, hmode⟩ := mnemonic_mode_of_row (row_of_builds hrow (row.form.builds_instr l.field))
  have hoperand := operand_instr_of_mem_dispatchTable l.field row hrow
  rw [hkey.1, hkey.2] at hoperand
  exact ⟨_, Line.instr_eq h hfind, hm.trans hkey.1, hmode.trans hkey.2, hoperand⟩

/-! A branch. -/

/-- The distance leads from the address after the branch to the target, modulo 65536. -/
theorem Line.after_add_distance (l : Line) (h : l.operand < 65536) : ((l.at0 + 2) % 65536 + l.distance) % 65536 = l.operand := by
  unfold Line.distance
  omega

/-- The low byte of a distance in reach, as a signed offset, is that distance modulo 65536. -/
theorem toInt_ofNat_distance {d : Nat} (hd : d < 128 ∨ (65408 ≤ d ∧ d < 65536)) :
    (BitVec.ofNat 8 (d % 256)).toInt = if d < 128 then (d : Int) else d - 65536 := by
  rw [BitVec.toInt_eq_toNat_cond, BitVec.toNat_ofNat]
  split <;> split <;> omega

/-- A branch written with a target in reach has the offset that reaches it. -/
theorem Line.offset_reaches {l : Line} (hmode : l.mode = .rel) (hfits : l.operandOk = true) (hreach : l.reachOk = true) :
    BitVec.ofNat 16 (l.at0 + 2) + sext16 (BitVec.ofNat 8 l.field) = BitVec.ofNat 16 l.operand := by
  simp only [Line.operandOk, Line.reachOk, hmode, decide_eq_true_eq, Bool.or_eq_true] at hfits hreach
  have hfield : l.field = l.distance % 256 := by simp only [Line.field, hmode]
  have hlt : l.distance < 65536 := Nat.mod_lt _ (by decide)
  have htarget := l.after_add_distance hfits
  apply BitVec.eq_of_toNat_eq
  rw [add_sext16_toNat, hfield, toInt_ofNat_distance (by omega), BitVec.toNat_ofNat, BitVec.toNat_ofNat]
  split <;> omega

/-! The zero-page form. -/

theorem Mode.zeroPageForm_eq_some {mode z : Mode} : mode.zeroPageForm = some z ↔
    (mode = .abs ∧ z = .zp) ∨ (mode = .absx ∧ z = .zpx) ∨ (mode = .absy ∧ z = .zpy) := by
  cases mode <;> simp [Mode.zeroPageForm, eq_comm]

/-- A line shrinks in its mode alone, where the mnemonic has the zero-page mode and the address is in page 0. -/
theorem Line.shrink_cases (l : Line) :
    l.shrink = l ∨
      ∃ z, l.mode.zeroPageForm = some z ∧ l.operand < 256 ∧ z ∈ l.mnemonic.modes ∧ l.shrink = { l with mode := z } := by
  unfold Line.shrink
  cases hz : l.mode.zeroPageForm with
  | none => exact .inl rfl
  | some z =>
    dsimp only
    split
    case isTrue h => exact .inr ⟨z, rfl, by simpa using h⟩
    case isFalse => exact .inl rfl

theorem Line.wf_shrink {l : Line} (h : l.wf = true) : l.shrink.wf = true := by
  rcases l.shrink_cases with hs | ⟨z, hz, hop, hmem, hs⟩
  · rw [hs, h]
  · rw [hs, Line.wf_iff]
    refine ⟨hmem, ?_⟩
    rcases Mode.zeroPageForm_eq_some.mp hz with ⟨-, rfl⟩ | ⟨-, rfl⟩ | ⟨-, rfl⟩ <;>
      exact ⟨decide_eq_true hop, rfl⟩

theorem Line.shrink_frame (l : Line) :
    l.shrink.mnemonic = l.mnemonic ∧ l.shrink.operand = l.operand ∧ l.shrink.at0 = l.at0 := by
  rcases l.shrink_cases with hs | ⟨z, -, -, -, hs⟩ <;> rw [hs] <;> exact ⟨rfl, rfl, rfl⟩

/-- Settles O6: the row of the line's mnemonic and mode builds the instruction, and decoding undoes its encoding. -/
theorem assembledLineIsTheInstructionWritten : Obligations.AssembledLineIsTheInstructionWritten := by
  refine ⟨fun l hl => ?written, fun l hl => ?shrunk⟩
  case written =>
    obtain ⟨-, hfits, hreach⟩ := l.wf_iff.mp hl
    obtain ⟨i, hinstr, hm, himode, hoperand⟩ := Line.exists_instr hl
    have hdecode : decode (encode i) = .ok (i, []) := by simpa using decodeOfEncodeIsTheInstruction i []
    refine ⟨i, hinstr, hm, himode, by rw [Line.assemble, hinstr, Option.map_some], hdecode, ?_⟩
    cases hmode : l.mode
    case rel =>
      rw [hmode] at hoperand
      exact ⟨_, hoperand, Line.offset_reaches hmode hfits hreach⟩
    all_goals simpa only [Line.field, hmode, fieldOperand] using hoperand
  case shrunk =>
    obtain ⟨hm, hop, hat⟩ := l.shrink_frame
    refine ⟨Line.wf_shrink hl, hm, hop, hat, ?_⟩
    unfold Line.shrink
    cases hmode : l.mode <;> simp [Mode.zeroPageForm, hmode, apply_ite Line.mode]

end Sys2Proof
end

section
/-! SUPPORT. Effective addresses as numbers (30_encoding.md R320 to R328). -/

namespace Sys2Proof.Machine

theorem zext16_eq_ofNat (b : Byte) : zext16 b = BitVec.ofNat 16 b.toNat := by
  apply BitVec.eq_of_toNat_eq
  rw [zext16_toNat, BitVec.toNat_ofNat]
  omega

/-- A pointer in page 0: its two bytes as a number, the address of the second wrapping within the page. -/
theorem read16zp_val_toNat (z : Byte) (s : State) :
    (read16zp z s).val.toNat = 256 * (s.mem.read ((z.toNat + 1) % 256)).toNat + (s.mem.read z.toNat).toNat := by
  rw [read16zp_eq, readPair_val, wordOf_toNat, zext16_toNat, zext16_toNat, BitVec.toNat_add]
  rfl

theorem indexed_ea_toNat (base : Addr) (index : Byte) (s : State) :
    (indexed base index s).ea.toNat = (base.toNat + index.toNat) % 65536 := by
  simp only [indexed, BitVec.toNat_add, zext16_toNat]

theorem indexed_crossed_iff (base : Addr) (index : Byte) (s : State) :
    (indexed base index s).crossed = true ↔ base.toNat / 256 ≠ (base.toNat + index.toNat) % 65536 / 256 := by
  rw [← indexed_ea_toNat base index s]
  exact crossed_iff _ _

/-- Settles O20: the pointer is read in page 0 at the wrapped sum of operand and X. -/
theorem zeroPageAndIndexedIndirectAddresses : Obligations.ZeroPageAndIndexedIndirectAddresses := by
  intro z s
  have hz : (resolve (.zp z) s).ea.toNat = z.toNat := zext16_toNat z
  have hlo : (z + s.x).toNat = (z.toNat + s.x.toNat) % 256 := BitVec.toNat_add z s.x
  have hhi : (z + s.x + 1#8).toNat = (z.toNat + s.x.toNat + 1) % 256 := by
    rw [BitVec.toNat_add, hlo]; exact Nat.mod_add_mod _ _ _
  refine ⟨⟨hz, hz ▸ z.isLt, rfl, rfl, rfl⟩, ?ea, ?reads, rfl, rfl, rfl⟩
  case ea =>
    have hptr := read16zp_val_toNat (z + s.x) s
    rw [hlo, Nat.mod_add_mod] at hptr
    exact hptr
  case reads => rw [resolve_st, pointerReads, zext16_eq_ofNat, zext16_eq_ofNat, hlo, hhi]

/-- Settles O21: an indexed mode is the sum of its base and the index, and (zp),Y takes its base from a pointer in page 0. -/
theorem indexedAddressesAndPageCrossing : Obligations.IndexedAddressesAndPageCrossing := by
  intro z a s
  have hzp (index : Byte) : (zext16 (z + index)).toNat = (z.toNat + index.toNat) % 256 := by
    rw [zext16_toNat, BitVec.toNat_add]
  refine ⟨hzp s.x, rfl, hzp s.y, rfl, rfl, rfl, indexed_ea_toNat a s.x s, indexed_crossed_iff a s.x s,
    indexed_ea_toNat a s.y s, indexed_crossed_iff a s.y s, ?indirect⟩
  rw [← read16zp_val_toNat]
  exact ⟨indexed_ea_toNat _ _ _, indexed_crossed_iff _ _ _⟩

end Sys2Proof.Machine
end

section
/-! SUPPORT. ADC and SBC (40_arithmetic.md R400, R401, R403): what both leave of a sum in A and P, binary subtraction and signed
overflow as numbers, and the reference DEC_ADJ. -/

namespace Sys2Proof.Machine

/-! What ADC and SBC share. -/

/-- The state `t` is `s` after ADC or SBC has put the sum `o` in A, C and V: Z and N follow the sum, nothing else changes, and the
instruction ends with the reads of its operand made. -/
def Accumulates (o : Alu) (base : Nat) (src : Source) (s t : State) : Prop :=
  t.a = o.r ∧ flag .C t.p = o.c ∧ flag .V t.p = o.v ∧ ZNFollow o.r t ∧ SameFlags [.C, .Z, .V, .N] s t ∧
    SameRegs [.A] s t ∧ t.mem = s.mem ∧ t.pc = s.pc + BitVec.ofNat 16 (srcLength src) ∧
    t.cycles = s.cycles + BitVec.ofNat 64 (base + (load src s).extra) ∧ t.bus = s.bus ++ loadReads src s

section Accumulates

variable (adj : DecAdj) (o : Alu) (base : Nat) (src : Source) (s : State)

/-- The end that the rules of ADC and SBC have in common, whatever the sum. -/
theorem finish_accumulates : Accumulates o base src s
    (finish (srcLength src) (base + (load src s).extra) (((load src s).st.setA o.r).setP (setAluFlags o s.p))) := by
  refine ⟨rfl, by simp, by simp, ⟨?zero, ?negative⟩, ?flags, sameRegs_of (by simp), by simp, by simp, by simp, by simp⟩
  case zero => exact Bool.eq_iff_iff.mpr (by simp)
  case negative => simp
  case flags =>
    intro f hf
    simp only [List.mem_cons, List.not_mem_nil, or_false, not_or] at hf
    simp [hf]

theorem adcWith_accumulates : Accumulates (aluAdd adj s.a (load src s).val s.p) base src s (adcWith adj base src s) :=
  finish_accumulates _ base src s

theorem sbcWith_accumulates : Accumulates (aluSub adj s.a (load src s).val s.p) base src s (sbcWith adj base src s) :=
  finish_accumulates _ base src s

end Accumulates

/-- The part of the binary ADC and SBC rules that does not depend on the sum. -/
theorem Accumulates.frame {o : Alu} {i : Instr} {src : Source} {s t : State} (h : Accumulates o i.baseCycles src s t)
    (ho : i.operand = src.operand) :
    ZNFollow t.a t ∧ SameFlags [.C, .Z, .V, .N] s t ∧ SameRegs [.A] s t ∧ t.mem = s.mem ∧
      Ends i (load src s).extra s t ∧ t.bus = s.bus ++ loadReads src s := by
  obtain ⟨ha, -, -, hzn, hflags, hregs, hmem, hpc, hcycles, hbus⟩ := h
  exact ⟨ha ▸ hzn, hflags, hregs, hmem, ⟨srcLength_eq ho ▸ hpc, hcycles⟩, hbus⟩

theorem aluAdd_of_decimal_set {p : Byte} (hD : flag .D p = true) (adj : DecAdj) (a m : Byte) :
    aluAdd adj a m p = adj .add a m (flag .C p) := if_pos hD

theorem aluSub_of_decimal_set {p : Byte} (hD : flag .D p = true) (adj : DecAdj) (a m : Byte) :
    aluSub adj a m p = adj .sub a m (flag .C p) := if_pos hD

/-- Settles O24: with D set the sum is the adjustment's, with D clear it is not consulted; every form of ADC and SBC is the
shared operation under the reference adjustment. -/
theorem decimalModeGoesThroughDecAdj : Obligations.DecimalModeGoesThroughDecAdj := by
  refine ⟨fun adj adj' base src s => ⟨fun hD => ⟨?add, ?sub⟩, fun hD => ⟨?adc, ?sbc⟩⟩,
    fun i src s ho => ⟨fun hm => exec_adc s hm ho, fun hm => exec_sbc s hm ho⟩⟩
  case add => exact aluAdd_of_decimal_set hD adj s.a (load src s).val ▸ adcWith_accumulates adj base src s
  case sub => exact aluSub_of_decimal_set hD adj s.a (load src s).val ▸ sbcWith_accumulates adj base src s
  case adc => exact adcWith_adj_irrelevant hD adj adj' base src plainRam
  case sbc => exact sbcWith_adj_irrelevant hD adj adj' base src plainRam

/-! Binary mode, in numbers. -/

section Binary

variable (a b m : Byte) (cin : Bool)

theorem addBinary_r_toNat : (addBinary a b cin).r.toNat = (a.toNat + b.toNat + cin.toNat) % 256 := by
  have hexact := addBinary_exact a b cin
  have hr := (addBinary a b cin).r.isLt
  omega

theorem addBinary_c_eq : (addBinary a b cin).c = decide (256 ≤ a.toNat + b.toNat + cin.toNat) := by
  have hexact := addBinary_exact a b cin
  have hr := (addBinary a b cin).r.isLt
  cases hc : (addBinary a b cin).c <;> simp only [hc, Bool.toNat_false, Bool.toNat_true] at hexact
  · exact (decide_eq_false (by omega)).symm
  · exact (decide_eq_true (by omega)).symm

/-- V is signed overflow: the exact signed sum does not fit a byte. -/
theorem addBinary_v_iff :
    (addBinary a b cin).v = true ↔
      a.toInt + b.toInt + (cin.toNat : Int) < -128 ∨ 127 < a.toInt + b.toInt + (cin.toNat : Int) := by
  have hr := addBinary_r_toNat a b cin
  have ha := a.isLt
  have hb := b.isLt
  have hc := cin.toNat_le
  rw [addBinary_overflow_iff, ne_eq]
  simp only [BitVec.msb_eq_decide, BitVec.toInt_eq_toNat_cond, decide_eq_decide, hr]
  omega

/-- Adding the complement and the carry is subtracting the operand and the borrow, in excess of 256. -/
theorem add_not_add_carry :
    a.toNat + (~~~ m).toNat + cin.toNat = 256 + a.toNat - m.toNat - (1 - cin.toNat) := by
  have hm := m.isLt
  have hc := cin.toNat_le
  rw [BitVec.toNat_not]
  omega

theorem toInt_not_byte : (~~~ m).toInt = -m.toInt - 1 := by
  have hm := m.isLt
  simp only [BitVec.toInt_eq_toNat_cond, BitVec.toNat_not]
  omega

/-- SBC's difference modulo 256, with the borrow `1 - C` taken away. -/
theorem addBinary_not_r_toNat :
    ((addBinary a (~~~ m) cin).r.toNat : Int) = ((a.toNat : Int) - m.toNat - (1 - cin.toNat : Nat)) % 256 := by
  have hsum := add_not_add_carry a m cin
  have hm := m.isLt
  rw [addBinary_r_toNat]
  omega

/-- SBC's C is no borrow (decision D5). -/
theorem addBinary_not_c_iff : (addBinary a (~~~ m) cin).c = true ↔ m.toNat + (1 - cin.toNat) ≤ a.toNat := by
  have hm := m.isLt
  rw [addBinary_c_eq, add_not_add_carry, decide_eq_true_iff]
  omega

/-- SBC's V is the signed overflow of the difference (decision D5). -/
theorem addBinary_not_v_iff :
    (addBinary a (~~~ m) cin).v = true ↔
      a.toInt - m.toInt - (1 - cin.toNat : Nat) < -128 ∨ 127 < a.toInt - m.toInt - (1 - cin.toNat : Nat) := by
  have hc := cin.toNat_le
  rw [addBinary_v_iff, toInt_not_byte]
  omega

end Binary

section Exec

variable {i : Instr} {src : Source} {s : State}

/-- Every form of ADC puts AddBinary's sum in A and P where D is clear. -/
theorem exec_adc_accumulates (hm : i.mnemonic = .ADC) (ho : i.operand = src.operand) (hD : flag .D s.p = false) :
    ∃ t, exec i s = .next t ∧ Accumulates (addBinary s.a (load src s).val (flag .C s.p)) i.baseCycles src s t := by
  rw [← aluAdd_of_decimal_clear hD decAdjReference]
  exact ⟨_, exec_adc s hm ho, adcWith_accumulates _ _ src s⟩

/-- Every form of SBC puts AddBinary's sum with the complement in A and P where D is clear. -/
theorem exec_sbc_accumulates (hm : i.mnemonic = .SBC) (ho : i.operand = src.operand) (hD : flag .D s.p = false) :
    ∃ t, exec i s = .next t ∧ Accumulates (addBinary s.a (~~~ (load src s).val) (flag .C s.p)) i.baseCycles src s t := by
  rw [← aluSub_of_decimal_clear hD decAdjReference]
  exact ⟨_, exec_sbc s hm ho, sbcWith_accumulates _ _ src s⟩

end Exec

/-- Settles O22: A and C hold AddBinary's exact sum, and V its signed overflow. -/
theorem adcAddsWithCarry : Obligations.AdcAddsWithCarry := by
  intro i src s hm ho hD
  obtain ⟨t, he, h⟩ := exec_adc_accumulates hm ho hD
  have hframe := h.frame ho
  obtain ⟨ha, hc, hv, -⟩ := h
  refine ⟨t, he, ?sum, ?overflow, hframe⟩
  case sum => rw [ha, hc, addBinary_exact]
  case overflow => exact hv ▸ addBinary_v_iff _ _ _

/-- Settles O23: AddBinary of the complement is the difference less the borrow, in A, in C and in V. -/
theorem sbcSubtractsWithBorrow : Obligations.SbcSubtractsWithBorrow := by
  intro i src s hm ho hD
  obtain ⟨t, he, h⟩ := exec_sbc_accumulates hm ho hD
  have hframe := h.frame ho
  obtain ⟨ha, hc, hv, -⟩ := h
  refine ⟨t, he, ⟨?difference, ?noBorrow, ?overflow⟩, hframe⟩
  case difference => exact ha ▸ addBinary_not_r_toNat _ _ _
  case noBorrow => exact hc ▸ addBinary_not_c_iff _ _ _
  case overflow => exact hv ▸ addBinary_not_v_iff _ _ _

/-! The reference DEC_ADJ. -/

theorem toNat_lowNibble (r : Byte) : (r &&& 0x0F#8).toNat = r.toNat % 16 :=
  (BitVec.toNat_and r 0x0F#8).trans (Nat.and_two_pow_sub_one_eq_mod r.toNat 4)

/-- The correction touches the result alone. -/
theorem decAdjReference_add (a m : Byte) (cin : Bool) :
    let o := addBinary a m cin
    decAdjReference .add a m cin = { o with r := if 9 < o.r.toNat % 16 then o.r + 6#8 else o.r } := by
  simp only [decAdjReference, toNat_lowNibble]
  split <;> rfl

theorem decAdjReference_sub (a m : Byte) (cin : Bool) :
    let o := addBinary a (~~~ m) cin
    decAdjReference .sub a m cin = { o with r := if 9 < o.r.toNat % 16 then o.r - 6#8 else o.r } := by
  simp only [decAdjReference, toNat_lowNibble]
  split <;> rfl

/-- Settles O26: the low nibble of the byte is that of the sum. -/
theorem referenceDecAdjCorrectsTheLowNibble : Obligations.ReferenceDecAdjCorrectsTheLowNibble := by
  intro a m cin
  dsimp only
  rw [decAdjReference_add, decAdjReference_sub, ← add_not_add_carry]
  refine ⟨⟨?add, addBinary_c_eq a m cin, rfl⟩, ⟨?sub, addBinary_c_eq a (~~~ m) cin, rfl⟩⟩
  case add =>
    have hr := addBinary_r_toNat a m cin
    simp only [apply_ite BitVec.toNat, BitVec.toNat_add, BitVec.toNat_ofNat]
    split <;> split <;> omega
  case sub =>
    have hr := addBinary_r_toNat a (~~~ m) cin
    simp only [apply_ite BitVec.toNat, BitVec.toNat_sub, BitVec.toNat_ofNat]
    split <;> split <;> omega

end Sys2Proof.Machine
end

section
/-! SUPPORT. AND, ORA, EOR and BIT (41_logical.md R420 to R423): the flags after a SetZN of the old P, and what the three that write
A share. -/

namespace Sys2Proof.Machine

/-! What SetZN makes of the old P, in any state that ends with it (R110). -/

section SetZN

variable {v : Byte} {s t : State}

theorem znFollow_of_setZN (h : t.p = setZN v s.p) : ZNFollow v t := by
  refine ⟨?zero, ?negative⟩
  case zero => exact Bool.eq_iff_iff.mpr (by simp [h])
  case negative => simp [h]

theorem sameFlags_of_setZN (h : t.p = setZN v s.p) : SameFlags [.Z, .N] s t := by
  intro f hf
  simp only [List.mem_cons, List.not_mem_nil, or_false, not_or] at hf
  simp [h, hf]

end SetZN

/-- The part of the rules of AND, ORA and EOR that does not depend on the operation on bits. -/
theorem logical_frame (op : Byte → Byte → Byte) {i : Instr} {src : Source} (ho : i.operand = src.operand) (s : State) :
    let t := logical op i.baseCycles src s
    ZNFollow t.a t ∧ SameFlags [.Z, .N] s t ∧ SameRegs [.A] s t ∧ t.mem = s.mem ∧
      Ends i (load src s).extra s t ∧ t.bus = s.bus ++ loadReads src s := by
  intro t
  have hp : t.p = setZN t.a s.p := by simp [t]
  exact ⟨znFollow_of_setZN hp, sameFlags_of_setZN hp, sameRegs_of (by simp [t]), by simp [t],
    ⟨by simp [t, srcLength_eq ho], by simp [t]⟩, by simp [t]⟩

/-- Settles O27: the three differ in the operation on bits alone. -/
theorem logicalOperationsCombineBits : Obligations.LogicalOperationsCombineBits := by
  intro i src s ho hm
  rcases hm with hm | hm | hm
  · exact ⟨_, exec_and s hm ho, fun k _ => by simp [hm], logical_frame _ ho s⟩
  · exact ⟨_, exec_ora s hm ho, fun k _ => by simp [hm], logical_frame _ ho s⟩
  · exact ⟨_, exec_eor s hm ho, fun k _ => by simp [hm], logical_frame _ ho s⟩

/-- Settles O28: the flags read through the three writes of P, and the one read at EA follows the pointer reads. -/
theorem bitTestsMemoryAgainstA : Obligations.BitTestsMemoryAgainstA := by
  intro i m s hm ho
  refine ⟨_, exec_bit s hm ho, ⟨by simp, by simp, by simp⟩, ?flags, sameRegs_of (by simp), by simp, ⟨?pc, by simp⟩, ?reads⟩
  case flags =>
    have hflags := (Meaning.bit hm ho).sameFlags s
    rwa [hm] at hflags
  case pc => rw [bitTest_pc, memLength_eq ho]
  case reads => rw [bitTest_bus, loadReads, List.append_assoc]

end Sys2Proof.Machine
end

section
/-! SUPPORT. ASL, LSR, ROL and ROR (42_shift_rotate.md R440 to R444): a bit entering at either end of a byte and a bit leaving
it, as numbers, and a shift in its two places. -/

namespace Sys2Proof.Machine

/-! One bit at an end of a byte. -/

section EndBits

variable (v : Byte) (b : Bool)

/-! Factors are written as powers of two, as `Nat.two_pow_add_eq_or_of_lt` joins disjoint bits. -/

theorem toNat_bitAt_zero : (bitAt 0 b).toNat = b.toNat := by cases b <;> rfl

theorem toNat_bitAt_seven : (bitAt 7 b).toNat = 2 ^ 7 * b.toNat := by cases b <;> rfl

theorem toNat_shiftLeft_one : (v <<< 1).toNat = 2 ^ 1 * (v.toNat % 128) := by
  rw [BitVec.toNat_shiftLeft, Nat.shiftLeft_eq]
  omega

theorem toNat_ushiftRight_one : (v >>> 1).toNat = v.toNat / 2 := by
  rw [BitVec.toNat_ushiftRight, Nat.shiftRight_eq_div_pow, Nat.pow_one]

/-- A bit entering at the low end: it takes the place the left shift left empty. -/
theorem toNat_shiftLeft_or_bitAt : (v <<< 1 ||| bitAt 0 b).toNat = (2 * v.toNat + b.toNat) % 256 := by
  have hb : b.toNat < 2 ^ 1 := b.toNat_lt
  rw [BitVec.toNat_or, toNat_shiftLeft_one, toNat_bitAt_zero, ← Nat.two_pow_add_eq_or_of_lt hb]
  omega

/-- A bit entering at the high end: it takes the place the right shift left empty. -/
theorem toNat_bitAt_or_ushiftRight : (bitAt 7 b ||| v >>> 1).toNat = (v.toNat + 256 * b.toNat) / 2 := by
  have hv : v.toNat / 2 < 2 ^ 7 := by have := v.isLt; omega
  rw [BitVec.toNat_or, toNat_bitAt_seven, toNat_ushiftRight_one, ← Nat.two_pow_add_eq_or_of_lt hv]
  omega

theorem getLsbD_seven_iff : v.getLsbD 7 = true ↔ 128 ≤ v.toNat := by
  rw [← BitVec.msb_eq_getLsbD_last, BitVec.msb_eq_decide, decide_eq_true_iff]

theorem getLsbD_zero_iff : v.getLsbD 0 = true ↔ v.toNat % 2 = 1 := by
  rw [BitVec.getLsbD, Nat.testBit_zero, decide_eq_true_iff]

end EndBits

/-- Settles O29: the old C enters, and the new C leaves, at the two ends of the byte; Z and N are of the result, or N is cleared. -/
theorem shiftBytesAsNumbers : Obligations.ShiftBytesAsNumbers := by
  intro v p
  refine ⟨⟨?asl, ?lsr, ?rol, ?ror⟩, ?aslCarry, ?rolCarry, ?lsrCarry, ?rorCarry, ?left, ?right, ?others⟩
  case asl => rw [aslByte_fst, toNat_shiftLeft_one]; omega
  case lsr => exact toNat_ushiftRight_one v
  case rol => exact toNat_shiftLeft_or_bitAt v (flag .C p)
  case ror => exact toNat_bitAt_or_ushiftRight v (flag .C p)
  case aslCarry => rw [flag_aslByte]; exact getLsbD_seven_iff v
  case rolCarry => rw [flag_rolByte]; exact getLsbD_seven_iff v
  case lsrCarry => rw [flag_lsrByte]; exact getLsbD_zero_iff v
  case rorCarry => rw [flag_rorByte]; exact getLsbD_zero_iff v
  case left | right => simp
  case others =>
    intro f hf g hC hZ hN
    simp only [List.mem_cons, List.not_mem_nil, or_false] at hf
    rcases hf with rfl | rfl | rfl | rfl <;> simp [hC, hZ, hN]

/-! The two places a shift works on. -/

section Places

variable (f : Byte → Byte → Byte × Byte) (s : State)

/-- In the accumulator: A and P are the pair the byte function makes of them, and no access is made. -/
theorem shift_acc_effect (base : Nat) :
    let t := shift f base .acc s
    t.a = (f s.a s.p).1 ∧ t.p = (f s.a s.p).2 ∧ SameRegs [.A] s t ∧ t.mem = s.mem ∧ t.bus = s.bus := by
  intro t
  exact ⟨by simp [t], by simp [t], sameRegs_of (by simp [t]), by simp [t], by simp [t]⟩

/-- In memory: one read and one write at EA, after the pointer reads, and no register is written. -/
theorem shift_mem_effect (base : Nat) (m : MemMode) :
    let t := shift f base (.mem m) s
    let ea := (resolve m s).ea
    let v := s.mem.read ea.toNat
    t.mem = s.mem.write ea.toNat (f v s.p).1 ∧ t.p = (f v s.p).2 ∧ SameRegs [] s t ∧
      t.bus = s.bus ++ pointerReads m s ++ [.read ea, .write ea (f v s.p).1] := by
  intro t
  exact ⟨shift_mem_mem f base m s, shift_mem_p f base m s, sameRegs_of (by simp [t]), shift_mem_bus f base m s⟩

/-- Both places end the instruction alike, at the base cost alone. -/
theorem shift_ends {i : Instr} {tgt : Target} (ho : i.operand = tgt.operand) :
    Ends i 0 s (shift f i.baseCycles tgt s) := by
  refine ⟨tgtLength_eq ho ▸ shift_pc f i.baseCycles tgt s, ?cycles⟩
  cases tgt <;> simp

end Places

/-- Each of the four is the shared operation at its own byte function. -/
theorem exec_shift {i : Instr} {tgt : Target} {f : Byte → Byte → Byte × Byte} (s : State) (ho : i.operand = tgt.operand)
    (hf : (i.mnemonic = .ASL ∧ f = aslByte) ∨ (i.mnemonic = .LSR ∧ f = lsrByte) ∨
      (i.mnemonic = .ROL ∧ f = rolByte) ∨ (i.mnemonic = .ROR ∧ f = rorByte)) :
    exec i s = .next (shift f i.baseCycles tgt s) := by
  rcases hf with ⟨hm, rfl⟩ | ⟨hm, rfl⟩ | ⟨hm, rfl⟩ | ⟨hm, rfl⟩
  · exact exec_asl s hm ho
  · exact exec_lsr s hm ho
  · exact exec_rol s hm ho
  · exact exec_ror s hm ho

/-- Settles O30: the four share one operation, which differs by its place alone. -/
theorem shiftsWorkOnAOrOnMemory : Obligations.ShiftsWorkOnAOrOnMemory := by
  intro i tgt s ho f hf
  refine ⟨_, exec_shift s ho hf, shift_ends f s ho, ?place⟩
  cases tgt with
  | acc => exact shift_acc_effect f s i.baseCycles
  | mem m => exact shift_mem_effect f s i.baseCycles m

end Sys2Proof.Machine
end

section
/-! SUPPORT. INC, DEC, INX, INY, DEX and DEY (43_incdec.md R460 to R465): one lemma for the byte in memory and one for a register,
each for any new value, and the wrap at the two ends of a byte. -/

namespace Sys2Proof.Machine

theorem toNat_add_one (v : Byte) : (v + 1#8).toNat = (v.toNat + 1) % 256 := BitVec.toNat_add v 1#8

theorem toNat_add_neg_one (v : Byte) : (v + -1#8).toNat = (v.toNat + 255) % 256 := BitVec.toNat_add v (-1#8)

theorem toNat_sub_one (v : Byte) : (v - 1#8).toNat = (v.toNat + 255) % 256 := BitVec.toNat_sub' v 1#8

/-! The byte in memory. -/

section InMemory

variable (d : Byte) (base : Nat) (m : MemMode) {s : State}

/-- What is read back at EA; only this needs the canonical form of memory. -/
theorem read_stepMem_ea (hs : s.Inv) :
    (stepMem d base m s).mem.read (resolve m s).ea.toNat = s.mem.read (resolve m s).ea.toNat + d := by
  rw [stepMem_mem]
  exact Memory.read_write_same hs _ _

theorem read_stepMem_other {b : Nat} (h : b ≠ (resolve m s).ea.toNat) :
    (stepMem d base m s).mem.read b = s.mem.read b := by
  rw [stepMem_mem]
  exact Memory.read_write_other s.mem _ h

end InMemory

/-- The part of the rules of INC and DEC that does not depend on the sign of the step. -/
theorem stepMem_effect (d : Byte) {i : Instr} {m : MemMode} {s : State} (ho : i.operand = .mem m) (hs : s.Inv) :
    let t := stepMem d i.baseCycles m s
    let ea := (resolve m s).ea
    let new := t.mem.read ea.toNat
    ((∀ b : Nat, b ≠ ea.toNat → t.mem.read b = s.mem.read b) ∧ ZNFollow new t ∧
      t.bus = s.bus ++ pointerReads m s ++ [.read ea, .write ea new]) ∧
    SameFlags [.Z, .N] s t ∧ SameRegs [] s t ∧ Ends i 0 s t := by
  intro t ea new
  have hnew : new = s.mem.read ea.toNat + d := read_stepMem_ea d _ m hs
  have hp : t.p = setZN new s.p := hnew ▸ stepMem_p d _ m s
  refine ⟨⟨fun b hb => read_stepMem_other d _ m hb, znFollow_of_setZN hp, ?bus⟩, sameFlags_of_setZN hp,
    sameRegs_of (by simp [t]), ?pc, stepMem_cycles d _ m s⟩
  case bus => exact hnew ▸ stepMem_bus d _ m s
  case pc => rw [stepMem_pc, memLength_eq ho]

/-- Settles O31: the two differ in the byte added alone. -/
theorem incDecMemoryWrapsAndSetsZN : Obligations.IncDecMemoryWrapsAndSetsZN := by
  intro i m s ho hm hs
  rcases hm with hm | hm
  case inl =>
    obtain ⟨hmemory, hframe⟩ := stepMem_effect 1#8 ho hs
    refine ⟨_, exec_inc s hm ho, ⟨?_, hmemory⟩, hframe⟩
    rw [read_stepMem_ea _ _ _ hs, hm]
    exact toNat_add_one _
  case inr =>
    obtain ⟨hmemory, hframe⟩ := stepMem_effect (-1#8) ho hs
    refine ⟨_, exec_dec s hm ho, ⟨?_, hmemory⟩, hframe⟩
    rw [read_stepMem_ea _ _ _ hs, hm]
    exact toNat_add_neg_one _

/-! A register. -/

/-- The state with the byte `v` in the register `r`. -/
def State.setReg (s : State) (v : Byte) : Reg → State
  | .A => s.setA v
  | .X => s.setX v
  | .Y => s.setY v
  | .SP => s.setSP v

@[simp] theorem reg_setReg (s : State) (v : Byte) (r : Reg) : reg r (s.setReg v r) = v := by cases r <;> rfl

theorem reg_finish_setP (r : Reg) (len n : Nat) (p : Byte) (s : State) : reg r (finish len n (s.setP p)) = reg r s := by
  cases r <;> rfl

/-- A one-byte instruction of 2 cycles that puts `v` in the register `r` and sets Z and N by it: its flags, its frame and its end. -/
theorem finish_setReg_effect (r : Reg) {i : Instr} (hlen : i.length = 1) (hbase : i.baseCycles = 2) (v : Byte) (s : State) :
    let t := finish 1 2 ((s.setReg v r).setP (setZN v s.p))
    ZNFollow (reg r t) t ∧ SameFlags [.Z, .N] s t ∧ SameRegs [r] s t ∧ t.mem = s.mem ∧ t.bus = s.bus ∧ Ends i 0 s t := by
  intro t
  have hv : reg r t = v := by rw [reg_finish_setP, reg_setReg]
  have hp : t.p = setZN (reg r t) s.p := hv ▸ rfl
  refine ⟨znFollow_of_setZN hp, sameFlags_of_setZN hp, ?_⟩
  rw [Ends, hlen, hbase]
  cases r <;> exact ⟨sameRegs_of (by simp [t, State.setReg]), rfl, rfl, rfl, rfl⟩

/-- Settles O32: each is a register written with the old byte plus or minus 1. -/
theorem incDecRegisterWrapsAndSetsZN : Obligations.IncDecRegisterWrapsAndSetsZN := fun s =>
  ⟨⟨_, rfl, toNat_add_one s.x, finish_setReg_effect .X rfl rfl (s.x + 1#8) s⟩,
    ⟨_, rfl, toNat_add_one s.y, finish_setReg_effect .Y rfl rfl (s.y + 1#8) s⟩,
    ⟨_, rfl, toNat_sub_one s.x, finish_setReg_effect .X rfl rfl (s.x - 1#8) s⟩,
    ⟨_, rfl, toNat_sub_one s.y, finish_setReg_effect .Y rfl rfl (s.y - 1#8) s⟩⟩

end Sys2Proof.Machine
end

section
/-! SUPPORT. CMP, CPX and CPY (44_compare.md R480 to R482): CompareFlags of the register and the byte as numbers, and what a
compare does with either. -/

namespace Sys2Proof.Machine

/-! CompareFlags as numbers: N is of the difference modulo 256, and Z is equality. -/

section Flags

variable (v m p : Byte)

theorem flag_zero_compareFlags_iff : flag .Z (compareFlags v m p) = true ↔ v = m := by
  obtain ⟨-, hz, -, -⟩ := compareFlagsAreOfTheDifference v m p
  rw [hz, BitVec.sub_eq_iff_eq_add, BitVec.zero_add]

theorem flag_negative_compareFlags_iff :
    flag .N (compareFlags v m p) = true ↔ 128 ≤ (v.toNat + 256 - m.toNat) % 256 := by
  obtain ⟨-, -, hn, -⟩ := compareFlagsAreOfTheDifference v m p
  have hm := m.isLt
  rw [hn, getLsbD_seven_iff, BitVec.toNat_sub]
  omega

end Flags

/-- The part of the rules of CMP, CPX and CPY that does not depend on the register compared. -/
theorem compareReg_effect (v : Byte) {i : Instr} {src : Source} (ho : i.operand = src.operand) (s : State) :
    let t := compareReg v i.baseCycles src s
    let m := (load src s).val
    (flag .C t.p = true ↔ m.toNat ≤ v.toNat) ∧ (flag .Z t.p = true ↔ v = m) ∧
      (flag .N t.p = true ↔ 128 ≤ (v.toNat + 256 - m.toNat) % 256) ∧
      SameFlags [.C, .Z, .N] s t ∧ SameRegs [] s t ∧ t.mem = s.mem ∧
      Ends i (load src s).extra s t ∧ t.bus = s.bus ++ loadReads src s := by
  intro t m
  have hp : t.p = compareFlags v m s.p := compareReg_p v _ src s
  obtain ⟨hc, -, -, hothers⟩ := compareFlagsAreOfTheDifference v m s.p
  rw [hp]
  refine ⟨hc, flag_zero_compareFlags_iff v m s.p, flag_negative_compareFlags_iff v m s.p, ?flags,
    sameRegs_of (by simp [t]), compareReg_mem v _ src s, ⟨?pc, compareReg_cycles v _ src s⟩, compareReg_bus v _ src s⟩
  case flags =>
    intro f hf
    simp only [List.mem_cons, List.not_mem_nil, or_false, not_or] at hf
    obtain ⟨hfc, hfz, hfn⟩ := hf
    exact hp ▸ hothers f hfc hfz hfn
  case pc => rw [compareReg_pc, srcLength_eq ho]

/-- Each of the three is the shared operation at its own register. -/
theorem exec_compare {i : Instr} {src : Source} {r : Reg} (s : State) (ho : i.operand = src.operand)
    (hr : (i.mnemonic = .CMP ∧ r = .A) ∨ (i.mnemonic = .CPX ∧ r = .X) ∨ (i.mnemonic = .CPY ∧ r = .Y)) :
    exec i s = .next (compareReg (reg r s) i.baseCycles src s) := by
  rcases hr with ⟨hm, rfl⟩ | ⟨hm, rfl⟩ | ⟨hm, rfl⟩
  · exact exec_cmp s hm ho
  · exact exec_cpx s hm ho
  · exact exec_cpy s hm ho

/-- Settles O33: the three share one operation, which differs by the register alone. -/
theorem comparesSetFlagsOnly : Obligations.ComparesSetFlagsOnly :=
  fun _ _ s ho r hr => ⟨_, exec_compare s ho hr, compareReg_effect (reg r s) ho s⟩

end Sys2Proof.Machine
end

section
/-! SUPPORT. The eight branches (45_branch.md R500 to R508): where a branch goes, as numbers, and what it costs. -/

namespace Sys2Proof.Machine

/-- The address after a branch, modulo 65536 (R500). -/
theorem toNat_add_two (pc : Addr) : (pc + 2#16).toNat = (pc.toNat + 2) % 65536 :=
  BitVec.toNat_add pc 2#16

/-- A taken branch costs 3 cycles on the page of the next instruction and 4 off it (R500). -/
theorem branch_taken_cycles_eq_ite (off : Byte) (s : State) :
    (branch true off s).cycles = s.cycles +
      if (s.pc + 2#16 + sext16 off).toNat / 256 = (s.pc + 2#16).toNat / 256 then 3#64 else 4#64 := by
  rw [branch_cycles, if_pos rfl]
  split
  case isTrue hcrossed => rw [if_neg (Ne.symm ((crossed_iff _ _).mp hcrossed))]
  case isFalse hsame => rw [if_pos (Decidable.not_not.mp (mt (crossed_iff _ _).mpr hsame)).symm]

/-- What the eight share: the next instruction for 2 cycles, or the target for 3 or 4, and nothing else. -/
theorem branch_effect (cond : Bool) (off : Byte) (s : State) :
    let t := branch cond off s
    (let next := (s.pc.toNat + 2) % 65536
     let target := (((next : Int) + off.toInt) % 65536).toNat
     (cond = false → t.pc.toNat = next ∧ t.cycles = s.cycles + 2#64) ∧
     (cond = true →
        t.pc.toNat = target ∧ t.cycles = s.cycles + (if target / 256 = next / 256 then 3#64 else 4#64))) ∧
    t.p = s.p ∧ SameRegs [] s t ∧ t.mem = s.mem ∧ t.bus = s.bus := by
  intro t
  refine ⟨⟨?notTaken, ?taken⟩, branch_p cond off s, sameRegs_of (by simp [t]), branch_mem cond off s, branch_bus cond off s⟩
  case notTaken =>
    rintro rfl
    exact ⟨toNat_add_two s.pc, rfl⟩
  case taken =>
    rintro rfl
    rw [← toNat_add_two, ← add_sext16_toNat]
    exact ⟨rfl, branch_taken_cycles_eq_ite off s⟩

/-- Settles O34: the eight share one operation, which differs by the condition alone. -/
theorem branchesTestOneFlag : Obligations.BranchesTestOneFlag :=
  fun i off s ho => ⟨_, exec_branch s ho, branch_effect (branchCond i.mnemonic s.p) off s⟩

end Sys2Proof.Machine
end

section
/-! SUPPORT. JMP, JSR, RTS, BRK and RTI (46_jump_call_break.md R520 to R528): where the indirect jump reads its target's high byte,
what an entry (JSR or BRK) leaves on the stack, and the return that undoes it. -/

namespace Sys2Proof.Machine

/-! The pointer of JMP (abs): its second byte is on the pointer's own page (R329). -/

/-- The page of one address and the place within the page of another, joined. -/
theorem masked_or_masked_eq_wordOf (a b : Addr) :
    (a &&& 0xFF00#16) ||| (b &&& 0x00FF#16) = wordOf (hiByte a) (loByte b) := by
  have hhi : a &&& 0xFF00#16 = (hiByte a).setWidth 16 <<< 8 := by
    ext k hk
    interval_cases k <;> simp [hiByte]
  have hlo : b &&& 0x00FF#16 = (loByte b).setWidth 16 := by
    ext k hk
    interval_cases k <;> simp [loByte]
  rw [hhi, hlo, wordOf]

/-- The address after `a` on its page: the page's first where `a` is its last. -/
theorem toNat_next_on_page (a : Addr) :
    ((a &&& 0xFF00#16) ||| ((a + 1#16) &&& 0x00FF#16)).toNat =
      if a.toNat % 256 = 255 then a.toNat - 255 else a.toNat + 1 := by
  have ha := a.isLt
  rw [masked_or_masked_eq_wordOf, wordOf_toNat, hiByte_toNat, loByte_toNat, BitVec.toNat_add, BitVec.toNat_ofNat]
  split <;> omega

/-- What the indirect jump does, its second read at `hi` as a number. -/
theorem jumpIndirect_effect (a : Addr) (s : State) :
    let t := jumpIndirect a s
    (let hi := if a.toNat % 256 = 255 then a.toNat - 255 else a.toNat + 1
     t.pc.toNat = 256 * (s.mem.read hi).toNat + (s.mem.read a.toNat).toNat ∧
     t.bus = s.bus ++ [.read a, .read (BitVec.ofNat 16 hi)]) ∧
    t.p = s.p ∧ SameRegs [] s t ∧ t.mem = s.mem ∧ t.cycles = s.cycles + 5#64 := by
  intro t
  refine ⟨?target, by simp [t, read16page_eq], sameRegs_of (by simp [t, read16page_eq]), by simp [t, read16page_eq],
    by simp [t, read16page_eq]⟩
  rw [← toNat_next_on_page]
  exact ⟨by simp [t, read16page_eq, wordOf_toNat], by simp [t, read16page_eq, -BitVec.toNat_or]⟩

/-- Settles O35: the absolute form is a plain jump, the indirect form reads its target on the pointer's page. -/
theorem jumpsReplacePC : Obligations.JumpsReplacePC :=
  fun a s => ⟨⟨_, rfl, rfl, rfl, sameRegs_of (by simp), rfl, rfl, rfl⟩, ⟨_, rfl, jumpIndirect_effect a s⟩⟩

/-! The meanings of the entries and the returns, and what an entry leaves on the stack. -/

/-- A recorded write is read back when the instruction is done: no instruction writes an address twice. -/
theorem read_written_of_exec {i : Instr} {s t : State} {l : List Access} {a : Addr} {v : Byte} (hs : s.Inv)
    (ht : exec i s = .next t) (hbus : t.bus = s.bus ++ l) (h : .write a v ∈ l) : t.mem.read a.toNat = v := by
  obtain ⟨t', l', ht', hl⟩ := exec_accesses i s
  cases ht'.symm.trans ht
  cases List.append_cancel_left (hl.bus.symm.trans hbus)
  rw [hl.mem]
  exact Memory.read_replay_written hs (hl.writeAddrs_eq ▸ storedTo_nodup i s) h

/-- `ReturnAddressAt sp v t`: the two stack bytes of `t` that a push at the stack pointer `sp` fills hold the word `v` (R206). -/
structure ReturnAddressAt (sp : Byte) (v : Addr) (t : State) : Prop where
  hi : t.mem.read (stackAddr sp).toNat = hiByte v
  lo : t.mem.read (stackAddr (sp - 1#8)).toNat = loByte v

/-- The two bytes as one number. -/
theorem ReturnAddressAt.toNat_eq {sp : Byte} {v : Addr} {t : State} (h : ReturnAddressAt sp v t) :
    256 * (t.mem.read (256 + sp.toNat)).toNat + (t.mem.read (256 + (sp - 1#8).toNat)).toNat = v.toNat := by
  rw [← stackAddr_toNat, ← stackAddr_toNat, h.hi, h.lo, ← wordOf_toNat, wordOf_hi_lo]

theorem exec_jsr (a : Addr) (s : State) : exec (.jsr a) s = .next (goto a 6 (push16 (s.pc + 2#16) s)) := rfl

theorem exec_rts (s : State) : exec .rts s = .next (returnSub s) := rfl

theorem exec_brk (s : State) : exec .brk s = .next (charge 7 (trapEntry (s.pc + 2#16) s)) := rfl

theorem exec_rti (s : State) : exec .rti s = .next (charge 6 (trapReturn s)) := rfl

theorem returnAddressAt_jsr (a : Addr) {s : State} (hs : s.Inv) :
    ReturnAddressAt s.sp (s.pc + 2#16) (goto a 6 (push16 (s.pc + 2#16) s)) :=
  ⟨read_written_of_exec hs (exec_jsr a s) (push16_bus _ s) (by simp),
    read_written_of_exec hs (exec_jsr a s) (push16_bus _ s) (by simp)⟩

/-- The record of the trap entry, with the two bytes of the vector as numbers (R620, D12). -/
theorem brk_bus (s : State) :
    (charge 7 (trapEntry (s.pc + 2#16) s)).bus = s.bus ++ [.write (stackAddr s.sp) (hiByte (s.pc + 2#16)),
      .write (stackAddr (s.sp - 1#8)) (loByte (s.pc + 2#16)), .write (stackAddr (s.sp - 2#8)) (setFlag .B true s.p),
      .read 0xFFFE#16, .read 0xFFFF#16] := by
  rw [charge_bus, trapEntry_bus]; rfl

theorem returnAddressAt_brk {s : State} (hs : s.Inv) :
    ReturnAddressAt s.sp (s.pc + 2#16) (charge 7 (trapEntry (s.pc + 2#16) s)) :=
  ⟨read_written_of_exec hs (exec_brk s) (brk_bus s) (by simp),
    read_written_of_exec hs (exec_brk s) (brk_bus s) (by simp)⟩

/-- The third byte BRK pushes is P with B set, and with I as it was (R620). -/
theorem read_pushed_p_brk {s : State} (hs : s.Inv) :
    (charge 7 (trapEntry (s.pc + 2#16) s)).mem.read (stackAddr (s.sp - 2#8)).toNat = setFlag .B true s.p :=
  read_written_of_exec hs (exec_brk s) (brk_bus s) (by simp)

/-- A push of a word touches its two stack bytes alone. -/
theorem read_push16_other (v : Addr) (s : State) {b : Nat} (h0 : b ≠ 256 + s.sp.toNat)
    (h1 : b ≠ 256 + (s.sp - 1#8).toNat) : (push16 v s).mem.read b = s.mem.read b := by
  rw [← stackAddr_toNat] at h0 h1
  rw [push16_mem, Memory.read_write_other _ _ h1, Memory.read_write_other _ _ h0]

/-- A trap entry touches its three stack bytes alone. -/
theorem read_trapEntry_other (ret : Addr) (s : State) {b : Nat} (h0 : b ≠ 256 + s.sp.toNat)
    (h1 : b ≠ 256 + (s.sp - 1#8).toNat) (h2 : b ≠ 256 + (s.sp - 2#8).toNat) :
    (trapEntry ret s).mem.read b = s.mem.read b := by
  rw [← stackAddr_toNat] at h0 h1 h2
  rw [trapEntry_mem, Memory.read_write_other _ _ h2, Memory.read_write_other _ _ h1, Memory.read_write_other _ _ h0]

/-- The BRK vector is not on the stack page, so the pushes leave it as it was. -/
theorem toNat_trapEntry_pc (ret : Addr) (s : State) :
    (trapEntry ret s).pc.toNat = 256 * (s.mem.read 0xFFFF).toNat + (s.mem.read 0xFFFE).toNat := by
  have hoff {b : Nat} (hb : 512 ≤ b) (sp : Byte) : b ≠ 256 + sp.toNat := by have := sp.isLt; omega
  have hvector {b : Nat} (hb : 512 ≤ b) : (trapEntry ret s).mem.read b = s.mem.read b :=
    read_trapEntry_other ret s (hoff hb _) (hoff hb _) (hoff hb _)
  rw [trapEntry_pc, wordOf_toNat, hvector (by decide), hvector (by decide)]
  rfl

/-- Settles O36: the address pushed is read back from the two stack bytes, and no other byte is written. -/
theorem jsrPushesTheReturnAddress : Obligations.JsrPushesTheReturnAddress := by
  intro a s hs
  refine ⟨_, exec_jsr a s, by simp, by simp, ?address, ?others, by simp, sameRegs_of (by simp), by simp, by simp⟩
  case address => rw [(returnAddressAt_jsr a hs).toNat_eq, toNat_add_two]
  case others => exact fun b h0 h1 => by rw [goto_mem, read_push16_other _ s h0 h1]

/-- Settles O38: the pushes come before I is set and leave the vector as it was. -/
theorem brkEntersTheTrap : Obligations.BrkEntersTheTrap := by
  intro s hs
  refine ⟨_, exec_brk s, by simp, by simp, ?flags, by simp, ?address, ?pushedP, ?others, ?vector, sameRegs_of (by simp),
    by simp, brk_bus s⟩
  case flags =>
    intro f hf
    simp only [List.mem_cons, List.not_mem_nil, or_false, not_or] at hf
    simp [hf]
  case address => rw [(returnAddressAt_brk hs).toNat_eq, toNat_add_two]
  case pushedP => rw [← stackAddr_toNat, read_pushed_p_brk hs]
  case others => exact fun b h0 h1 h2 => by rw [charge_mem, read_trapEntry_other _ s h0 h1 h2]
  case vector => rw [charge_pc, toNat_trapEntry_pc]

/-! The returns. -/

/-- Settles O37: the word pulled, plus 1. -/
theorem rtsReturnsPastThePulledAddress : Obligations.RtsReturnsPastThePulledAddress := by
  intro s
  refine ⟨_, exec_rts s, ?pc, by simp, by simp, sameRegs_of (by simp), by simp, by simp, by simp⟩
  simp [BitVec.toNat_add, wordOf_toNat, stackAddr_toNat]

/-- Settles O39: P is the first byte pulled, and PC the word after it. -/
theorem rtiRestoresPAndPC : Obligations.RtiRestoresPAndPC := by
  intro s
  refine ⟨_, exec_rti s, ?p, ?pc, trapReturn_sp s, sameRegs_of (by simp), trapReturn_mem s, by simp, trapReturn_bus s⟩
  case p => simp [stackAddr_toNat]
  case pc => simp [wordOf_toNat, stackAddr_toNat]

/-- A return address is pulled by the RTS whose stack pointer is the 2 lower that its push left. -/
theorem pull16_val_of_returnAddressAt {sp : Byte} {v : Addr} {t : State} (h : ReturnAddressAt sp v t)
    (hsp : t.sp = sp - 2#8) : (pull16 t).val = v := by
  have hhi : t.sp + 2#8 = sp := by rw [hsp, BitVec.sub_add_cancel]
  have hlo : t.sp + 1#8 = sp - 1#8 := by bv_omega
  rw [pull16_val, hhi, hlo, h.hi, h.lo, wordOf_hi_lo]

/-- A return address is pulled by the RTI whose stack pointer is the 3 lower that a trap entry left. -/
theorem trapReturn_pc_of_returnAddressAt {sp : Byte} {v : Addr} {t : State} (h : ReturnAddressAt sp v t)
    (hsp : t.sp = sp - 3#8) : (trapReturn t).pc = v := by
  have hhi : t.sp + 3#8 = sp := by rw [hsp, BitVec.sub_add_cancel]
  have hlo : t.sp + 2#8 = sp - 1#8 := by bv_omega
  rw [trapReturn_pc, hhi, hlo, h.hi, h.lo, wordOf_hi_lo]

/-- Settles O46: RTS pulls the address JSR pushed. -/
theorem jsrThenRtsComesBack : Obligations.JsrThenRtsComesBack := by
  intro a s hs
  refine ⟨_, _, exec_jsr a s, exec_rts _, ?pc, sameRegs_of (by simp), by simp⟩
  rw [returnSub_eq, goto_pc, pull16_val_of_returnAddressAt (returnAddressAt_jsr a hs) (by simp)]
  exact BitVec.add_assoc s.pc 2#16 1#16

theorem storedTo_brk (s : State) :
    storedTo .brk s = [stackAddr s.sp, stackAddr (s.sp - 1#8), stackAddr (s.sp - 2#8)] := rfl

/-- Settles O47: RTI pulls the three bytes BRK pushed, whatever else the handler changed. -/
theorem brkThenRtiComesBack : Obligations.BrkThenRtiComesBack := by
  intro s hs
  refine ⟨_, exec_brk s, fun h hsp hkept => ?_⟩
  rw [charge_sp, trapEntry_sp] at hsp
  refine ⟨_, exec_rti h, ?pc, ?sp, ?p⟩
  case pc =>
    have ⟨hi, lo⟩ := returnAddressAt_brk hs
    have haddress : ReturnAddressAt s.sp (s.pc + 2#16) h :=
      ⟨(hkept _ (by simp [storedTo_brk])).trans hi, (hkept _ (by simp [storedTo_brk])).trans lo⟩
    exact trapReturn_pc_of_returnAddressAt haddress hsp
  case sp => rw [charge_sp, trapReturn_sp, hsp, BitVec.sub_add_cancel]
  case p =>
    have hp : h.sp + 1#8 = s.sp - 2#8 := by bv_omega
    rw [charge_p, trapReturn_p, hp, hkept _ (by simp [storedTo_brk]), read_pushed_p_brk hs]

end Sys2Proof.Machine
end

section
/-! SUPPORT. PHA, PHP, PLA and PLP (47_stack.md R540 to R544): what a push leaves on the stack, and the pull that takes it back. -/

namespace Sys2Proof.Machine

theorem exec_pha (s : State) : exec .pha s = .next (finish 1 3 (push s.a s)) := rfl

theorem exec_php (s : State) : exec .php s = .next (finish 1 3 (push s.p s)) := rfl

theorem exec_pla (s : State) : exec .pla s = .next (pullA s) := rfl

theorem exec_plp (s : State) : exec .plp s = .next (pullP s) := rfl

/-- A push touches its stack byte alone. -/
theorem read_push_other (v : Byte) (s : State) {b : Nat} (h : b ≠ 256 + s.sp.toNat) :
    (push v s).mem.read b = s.mem.read b := by
  rw [push_mem, stackAddr_toNat, Memory.read_write_other _ _ h]

/-- The part of the rules of PHA and PHP that does not depend on the byte pushed. -/
theorem finish_push_effect (v : Byte) {i : Instr} (hlen : i.length = 1) (hbase : i.baseCycles = 3) {s : State} (hs : s.Inv) :
    let t := finish 1 3 (push v s)
    t.sp = s.sp - 1#8 ∧ t.mem.read (256 + s.sp.toNat) = v ∧
      (∀ b : Nat, b ≠ 256 + s.sp.toNat → t.mem.read b = s.mem.read b) ∧
      t.p = s.p ∧ SameRegs [.SP] s t ∧ Ends i 0 s t ∧ t.bus = s.bus ++ [.write (stackAddr s.sp) v] := by
  intro t
  refine ⟨rfl, ?pushed, fun b hb => read_push_other v s hb, rfl, sameRegs_of (by simp [t]), ?ends, rfl⟩
  case pushed => rw [← stackAddr_toNat]; exact Memory.read_write_same hs _ _
  case ends => rw [Ends, hlen, hbase]; exact ⟨rfl, rfl⟩

/-- Settles O40: the two differ in the byte pushed alone. -/
theorem pushesStoreThenDecrement : Obligations.PushesStoreThenDecrement := by
  rintro i s hs (rfl | rfl)
  · exact ⟨_, exec_pha s, finish_push_effect s.a rfl rfl hs⟩
  · exact ⟨_, exec_php s, finish_push_effect s.p rfl rfl hs⟩

/-- Settles O41: both load the byte one above SP; PLA puts it in A and sets Z and N, PLP makes it the new P. -/
theorem pullsIncrementThenLoad : Obligations.PullsIncrementThenLoad := by
  intro s
  dsimp only
  rw [← stackAddr_toNat]
  exact ⟨⟨_, exec_pla s, rfl, rfl, znFollow_of_setZN rfl, sameFlags_of_setZN rfl, sameRegs_of (by simp), rfl, ⟨rfl, rfl⟩, rfl⟩,
    ⟨_, exec_plp s, rfl, rfl, sameRegs_of (by simp), rfl, ⟨rfl, rfl⟩, rfl⟩⟩

/-- Settles O48: SP is back where it was for the byte pulled, which is the one pushed; what the push keeps the pull keeps too. -/
theorem pushThenPullRestores : Obligations.PushThenPullRestores := by
  intro s hs
  have hback {t : State} (hsp : t.sp = s.sp - 1#8) : t.sp + 1#8 = s.sp := by rw [hsp, BitVec.sub_add_cancel]
  refine ⟨?a, ?p⟩
  case a =>
    obtain ⟨t, ht, hsp, hpushed, -, hp, -⟩ := pushesStoreThenDecrement .pha s hs (.inl rfl)
    obtain ⟨⟨u, hu, ha, hspu, hzn, hflags, -⟩, -⟩ := pullsIncrementThenLoad t
    rw [hback hsp, hpushed, if_pos rfl] at ha hzn
    exact ⟨t, u, ht, hu, ha, hspu.trans (hback hsp), hzn, fun f hf => hp ▸ hflags f hf⟩
  case p =>
    obtain ⟨t, ht, hsp, hpushed, -, -, hregs, -⟩ := pushesStoreThenDecrement .php s hs (.inr rfl)
    obtain ⟨-, u, hu, hp, hspu, hregsu, -⟩ := pullsIncrementThenLoad t
    rw [hback hsp, hpushed, if_neg (by decide)] at hp
    exact ⟨t, u, ht, hu, hp, hspu.trans (hback hsp), (hregsu .A (by decide)).trans (hregs .A (by decide))⟩

end Sys2Proof.Machine
end

section
/-! SUPPORT. The transfers, the flag instructions and NOP (48_transfer_flag_nop.md R560 to R580): one lemma for a register copied and
one for a flag written. -/

namespace Sys2Proof.Machine

/-- The part of the rules of TAX, TAY, TXA, TYA and TSX that does not depend on the two registers. -/
theorem transfer_effect {i : Instr} {src dst : Reg} {s : State} (hlen : i.length = 1) (hbase : i.baseCycles = 2)
    (he : exec i s = .next (finish 1 2 ((s.setReg (reg src s) dst).setP (setZN (reg src s) s.p)))) :
    ∃ t, exec i s = .next t ∧ reg dst t = reg src s ∧ SameRegs [dst] s t ∧
      (ZNFollow (reg src s) t ∧ SameFlags [.Z, .N] s t) ∧ t.mem = s.mem ∧ t.bus = s.bus ∧ Ends i 0 s t := by
  obtain ⟨hzn, hflags, hregs, hmem, hbus, hends⟩ := finish_setReg_effect dst hlen hbase (reg src s) s
  have hdst : reg dst (finish 1 2 ((s.setReg (reg src s) dst).setP (setZN (reg src s) s.p))) = reg src s := by
    rw [reg_finish_setP, reg_setReg]
  rw [hdst] at hzn
  exact ⟨_, he, hdst, hregs, ⟨hzn, hflags⟩, hmem, hbus, hends⟩

/-- Settles O42: five copy a register with Z and N after it, TXS copies X alone. -/
theorem transfersCopyARegister : Obligations.TransfersCopyARegister := by
  intro i src dst s hi
  simp only [List.mem_cons, Prod.mk.injEq, List.not_mem_nil, or_false] at hi
  rcases hi with ⟨rfl, rfl, rfl⟩ | ⟨rfl, rfl, rfl⟩ | ⟨rfl, rfl, rfl⟩ | ⟨rfl, rfl, rfl⟩ | ⟨rfl, rfl, rfl⟩ | ⟨rfl, rfl, rfl⟩
  case inr.inr.inr.inr.inr => exact ⟨_, rfl, rfl, sameRegs_of (by simp), rfl, rfl, rfl, rfl, rfl⟩
  all_goals exact transfer_effect rfl rfl rfl

/-- What the seven flag instructions share: each is a write of its one flag, of one byte and 2 cycles. -/
theorem exec_flagInstruction {i : Instr} {f : Flag} {b : Bool}
    (h : (i, f, b) ∈ [(Instr.clc, Flag.C, false), (.sec, .C, true), (.cld, .D, false), (.sed, .D, true), (.cli, .I, false),
      (.sei, .I, true), (.clv, .V, false)]) :
    (∀ s, exec i s = .next (finish 1 2 (s.setP (setFlag f b s.p)))) ∧ i.length = 1 ∧ i.baseCycles = 2 := by
  simp only [List.mem_cons, Prod.mk.injEq, List.not_mem_nil, or_false] at h
  rcases h with ⟨rfl, rfl, rfl⟩ | ⟨rfl, rfl, rfl⟩ | ⟨rfl, rfl, rfl⟩ | ⟨rfl, rfl, rfl⟩ | ⟨rfl, rfl, rfl⟩ | ⟨rfl, rfl, rfl⟩ |
    ⟨rfl, rfl, rfl⟩
  all_goals exact ⟨fun _ => rfl, rfl, rfl⟩

/-- Settles O43: a second write of the flag writes what it holds. -/
theorem flagInstructionsWriteOneFlag : Obligations.FlagInstructionsWriteOneFlag := by
  refine ⟨fun i f b s hi => ?_, fun s => rfl⟩
  obtain ⟨he, hlen, hbase⟩ := exec_flagInstruction hi
  refine ⟨_, he s, by simp, ?flags, sameRegs_of (by simp), rfl, rfl, ?ends, _, he _, setFlag_setFlag f b b s.p⟩
  case flags => exact fun g hg => by simp [List.mem_singleton.not.mp hg]
  case ends => rw [Ends, hlen, hbase]; exact ⟨rfl, rfl⟩

end Sys2Proof.Machine
end

section
/-! SUPPORT. The loads and the stores (49_load_store.md R590 to R595): one lemma for a register loaded, whichever it is, and one for
a byte stored. -/

namespace Sys2Proof.Machine

/-! What a write of one register leaves alone. -/

section SetReg

variable (s : State) (v : Byte) (r : Reg)

@[simp] theorem State.setReg_pc : (s.setReg v r).pc = s.pc := by cases r <;> rfl
@[simp] theorem State.setReg_cycles : (s.setReg v r).cycles = s.cycles := by cases r <;> rfl
@[simp] theorem State.setReg_mem : (s.setReg v r).mem = s.mem := by cases r <;> rfl
@[simp] theorem State.setReg_bus : (s.setReg v r).bus = s.bus := by cases r <;> rfl

theorem sameRegs_setReg : SameRegs [r] s (s.setReg v r) := by
  cases r <;> exact sameRegs_of (by simp [State.setReg])

end SetReg

theorem reg_load_st (r : Reg) (src : Source) (s : State) : reg r (load src s).st = reg r s := by
  cases r <;> simp [reg]

/-- Each of the three is the shared operation at its own register. -/
theorem exec_load {i : Instr} {src : Source} {r : Reg} (s : State) (ho : i.operand = src.operand)
    (hr : (i.mnemonic = .LDA ∧ r = .A) ∨ (i.mnemonic = .LDX ∧ r = .X) ∨ (i.mnemonic = .LDY ∧ r = .Y)) :
    exec i s = .next (loadReg (fun u v => u.setReg v r) i.baseCycles src s) := by
  rcases hr with ⟨hm, rfl⟩ | ⟨hm, rfl⟩ | ⟨hm, rfl⟩
  · exact exec_lda s hm ho
  · exact exec_ldx s hm ho
  · exact exec_ldy s hm ho

/-- The part of the rules of LDA, LDX and LDY that does not depend on the register loaded. -/
theorem loadReg_effect (r : Reg) {i : Instr} {src : Source} (ho : i.operand = src.operand) (s : State) :
    let t := loadReg (fun u v => u.setReg v r) i.baseCycles src s
    reg r t = (load src s).val ∧ ZNFollow (load src s).val t ∧ SameFlags [.Z, .N] s t ∧
      SameRegs [r] s t ∧ t.mem = s.mem ∧ Ends i (load src s).extra s t ∧ t.bus = s.bus ++ loadReads src s := by
  intro t
  refine ⟨?value, znFollow_of_setZN (s := s) rfl, sameFlags_of_setZN (v := (load src s).val) rfl, ?frame, by simp [t, loadReg],
    ⟨?pc, by simp [t, loadReg]⟩, by simp [t, loadReg]⟩
  case value => exact (reg_finish_setP r _ _ _ _).trans (reg_setReg _ _ r)
  case frame =>
    intro q hq
    exact (reg_finish_setP q _ _ _ _).trans ((sameRegs_setReg _ _ r q hq).trans (reg_load_st q src s))
  case pc => simp [t, loadReg, srcLength_eq ho]

/-- Settles O44: the three share one operation, which differs by the register alone. -/
theorem loadsFillTheRegister : Obligations.LoadsFillTheRegister :=
  fun _ _ s ho r hr => ⟨_, exec_load s ho hr, loadReg_effect r ho s⟩

/-- Settles O45: the three share one operation, whose one write is at EA. -/
theorem storesWriteTheRegister : Obligations.StoresWriteTheRegister := by
  intro i m s ho hs r hr
  refine ⟨_, exec_store s ho hr, ?stored, fun b hb => ?others, storeReg_p _ _ m s, sameRegs_of (by simp),
    ⟨?pc, storeReg_cycles _ _ m s⟩, storeReg_bus _ _ m s⟩
  case stored => rw [storeReg_mem, Memory.read_write_same hs]
  case others => rw [storeReg_mem, Memory.read_write_other _ _ hb]
  case pc => rw [storeReg_pc, memLength_eq ho]

end Sys2Proof.Machine
end

section
/-! SUPPORT. The one exception, and nested traps (60_exceptions.md R600, R602, R631). -/

namespace Sys2Proof.Machine

/-- Settles O10: every instruction has a meaning. -/
theorem everyInstructionCompletes : Obligations.EveryInstructionCompletes := fun i s =>
  have ⟨f, _, he⟩ := exec_meaning i
  ⟨f s, he s⟩

/-- Settles O9: a fetch without a row in the opcode map ends the step at once; with one, the step runs an instruction, and none
fails. -/
theorem unknownOpcodeExactlyAtUndefinedBytes : Obligations.UnknownOpcodeExactlyAtUndefinedBytes := by
  refine fun s op => ⟨?fault, fun h => fetch_undefined ((mem_undefinedOpcodes_iff _).mp h)⟩
  rw [mem_undefinedOpcodes_iff]
  cases hd : dispatch (opcodeAt s) with
  | none =>
    have hstep : step s = .fault (.unknownOpcode (opcodeAt s)) := by simp only [step, fetch_undefined hd]
    rw [hstep]
    constructor
    · rintro ⟨⟩
      exact ⟨rfl, hd⟩
    · rintro ⟨rfl, -⟩
      rfl
  | some row =>
    obtain ⟨i, u, hf⟩ := fetch_of_dispatch hd
    obtain ⟨t, ht⟩ := everyInstructionCompletes i u
    rw [step_of_fetch hf, ht]
    constructor
    · nofun
    · rintro ⟨rfl, hnone⟩
      cases hnone.symm.trans hd

theorem execTimes_succ {i : Instr} {s t : State} (h : exec i s = .next t) (n : Nat) :
    execTimes (n + 1) i s = execTimes n i t := by
  rw [execTimes, h]

/-- Settles O49, by induction on the number of entries: each starts where the one before it left SP. -/
theorem brkNestsWithoutLimit : Obligations.BrkNestsWithoutLimit := by
  intro n
  induction n with
  | zero => exact fun s => ⟨s, rfl, by simp, by simp, rfl, rfl, rfl, fun _ _ => rfl⟩
  | succ n ih =>
    intro s
    obtain ⟨t, ht, hsp, hcycles, ha, hx, hy, hmem⟩ := ih (charge 7 (trapEntry (s.pc + 2#16) s))
    have hoff {b : Nat} (hb : b / 256 ≠ 1) (sp : Byte) : b ≠ 256 + sp.toNat := by have := sp.isLt; omega
    refine ⟨t, (execTimes_succ (exec_brk s) n).trans ht, ?sp, ?cycles, ha.trans (by simp), hx.trans (by simp),
      hy.trans (by simp), fun b hb => ?others⟩
    case sp =>
      rw [hsp, charge_sp, trapEntry_sp, BitVec.sub_sub, ← BitVec.ofNat_add, Nat.mul_succ, Nat.add_comm]
    case cycles =>
      rw [hcycles, charge_cycles, trapEntry_cycles, BitVec.add_assoc, ← BitVec.ofNat_add, Nat.mul_succ, Nat.add_comm 7]
    case others =>
      rw [hmem b hb, charge_mem, read_trapEntry_other _ s (hoff hb _) (hoff hb _) (hoff hb _)]

end Sys2Proof.Machine
end

section
/-! SUPPORT. The halt idiom and the cost of a step (70_reset_and_hazards.md R721, R722). -/

namespace Sys2Proof.Machine

/-! The halt idiom. -/

/-- What a fetch finds is what the bytes at PC decode to: they begin with its encoding. -/
theorem decode_of_fetch {s u : State} {i : Instr} (h : fetch s = .instr i u) :
    decode (bytesAtPC s) = .ok (i, (bytesAtPC s).drop i.length) := by
  have hround := decodeOfEncodeIsTheInstruction i ((bytesAtPC s).drop i.length)
  rwa [encode_of_fetch h, List.take_append_drop] at hround

/-- States with the same bytes at PC fetch the same instruction. -/
theorem fetch_of_bytesAtPC_eq {s t u : State} {i : Instr} (h : fetch s = .instr i u) (hbytes : bytesAtPC t = bytesAtPC s) :
    fetch t = .instr i (t.setBus (fetchReads t i.length)) :=
  fetch_of_decode ((congrArg decode hbytes).trans (decode_of_fetch h))

theorem halted_iff (s : State) : halted s = true ↔ ∃ u, fetch s = .instr (.jmpAbs s.pc) u := by
  unfold halted
  split
  case h_1 a u hf => simp [hf]
  case h_2 hno => simpa using fun u hf => hno _ u hf

/-- Settles O51: the jump to its own address leaves PC and memory as they were, so the next fetch finds it again. -/
theorem haltedStateLoops : Obligations.HaltedStateLoops := by
  intro s hs
  obtain ⟨u, hu⟩ := (halted_iff s).mp hs
  have hf := fetch_of_bytesAtPC_eq hu rfl
  exact ⟨_, step_of_fetch hf, (halted_iff _).mpr ⟨_, fetch_of_bytesAtPC_eq hu rfl⟩, rfl, rfl, sameRegs_of (by simp), rfl, rfl⟩

/-! Where a page crossing costs a cycle (R312). -/

open Laws.Encoding (pageCrossRule)

theorem pageCross_eq_rule (i : Instr) : i.pageCross = pageCrossRule i := by
  cases i <;> rfl

/-- Apart from a branch and the read class, no instruction pays a page crossing. -/
theorem pageCross_eq_none {i : Instr} (hrel : i.mode ≠ .rel)
    (hm : i.mnemonic ∉ [.ADC, .SBC, .AND, .ORA, .EOR, .CMP, .LDA, .LDX, .LDY]) : i.pageCross = .none := by
  rw [pageCross_eq_rule, pageCrossRule, if_neg hrel, if_neg fun h => hm h.2]

/-- Only an indexed mode reports a page crossing (R321). -/
theorem resolve_crossed_of_not_indexed {m : MemMode} (h : m.mode ∉ [.absx, .absy, .indy]) (s : State) :
    (resolve m s).crossed = false := by
  cases m with
  | zp | zpx | zpy | abs | indx => rfl
  | absx | absy | indy => simp [MemMode.mode] at h

theorem memMode_ne_rel (m : MemMode) : m.mode ≠ .rel := by cases m <;> nofun

theorem surcharge_of_pageCross_none {i : Instr} (h : i.pageCross = .none) (s : State) : surcharge i s = 0 := by
  simp [surcharge, h]

theorem surcharge_of_imm {i : Instr} {v : Byte} (ho : i.operand = .imm v) (s : State) : surcharge i s = 0 := by
  unfold surcharge
  rw [ho]
  cases i.pageCross <;> rfl

/-- An instruction that is of the read class where it is indexed pays the crossing that the read side of the resolver reports. -/
theorem surcharge_of_read {i : Instr} {src : Source} (ho : i.operand = src.operand)
    (hm : i.mode ∈ [.absx, .absy, .indy] → i.mnemonic ∈ [.ADC, .SBC, .AND, .ORA, .EOR, .CMP, .LDA, .LDX, .LDY]) (s : State) :
    surcharge i s = (load src s).extra := by
  cases src with
  | imm v => exact surcharge_of_imm ho s
  | mem m =>
    have hmode : i.mode = m.mode := congrArg Operand.mode ho
    have hrel : i.mode ≠ .rel := hmode ▸ memMode_ne_rel m
    by_cases hindexed : i.mode ∈ [.absx, .absy, .indy]
    case pos =>
      have hread : i.pageCross = .read := by
        rw [pageCross_eq_rule, pageCrossRule, if_neg hrel, if_pos ⟨hindexed, hm hindexed⟩]
      simp only [surcharge, hread, ho, Source.operand, load]
    case neg =>
      have hnone : i.pageCross = .none := by
        rw [pageCross_eq_rule, pageCrossRule, if_neg hrel, if_neg fun h => hindexed h.1]
      rw [surcharge_of_pageCross_none hnone, load, resolve_crossed_of_not_indexed (hmode ▸ hindexed) s]
      rfl

/-- CPX and CPY have no indexed mode (R481, R482). -/
theorem not_indexed_of_cpx_cpy {i : Instr} (hm : i.mnemonic = .CPX ∨ i.mnemonic = .CPY) :
    i.mode ∉ [.absx, .absy, .indy] := by
  rcases hm with hm | hm <;> cases i <;> cases hm <;>
    simp [Instr.mode, Instr.operand, Operand.mode, MemMode.mode]

theorem baseCycles_of_branch {i : Instr} {off : Byte} (ho : i.operand = .rel off) : i.baseCycles = 2 := by
  cases i <;> cases ho <;> rfl

/-- A branch pays 1 when taken, and 1 more when its target is on another page (R500). -/
theorem surcharge_of_branch {i : Instr} {off : Byte} (ho : i.operand = .rel off) (s : State) :
    surcharge i s = if branchCond i.mnemonic s.p then
      if crossed (s.pc + 2#16) (s.pc + 2#16 + sext16 off) then 2 else 1 else 0 := by
  have hbranch : i.pageCross = .branch := by
    have hrel : i.mode = .rel := congrArg Operand.mode ho
    rw [pageCross_eq_rule, pageCrossRule, if_pos hrel]
  simp only [surcharge, hbranch, ho]

theorem shift_cycles (b : Byte → Byte → Byte × Byte) (base : Nat) (t : Target) (s : State) :
    (shift b base t s).cycles = s.cycles + BitVec.ofNat 64 base := by
  cases t with
  | acc => exact shift_acc_cycles b base s
  | mem m => exact shift_mem_cycles b base m s

theorem target_mode_ne_rel (t : Target) : t.operand.mode ≠ .rel := by
  cases t with
  | acc => nofun
  | mem m => exact memMode_ne_rel m

/-- A meaning charges the base cost of its row and the surcharge of its rule. -/
theorem Meaning.cycles {i : Instr} {f : State → State} (h : Meaning i f) (s : State) :
    (f s).cycles = s.cycles + BitVec.ofNat 64 (i.baseCycles + surcharge i s) := by
  cases h
  case adc hm ho | sbc hm ho | and hm ho | ora hm ho | eor hm ho | cmp hm ho | lda hm ho | ldx hm ho | ldy hm ho =>
    rw [surcharge_of_read ho fun _ => by simp [hm]]
    simp
  case cpx hm ho | cpy hm ho =>
    have hmode := not_indexed_of_cpx_cpy (i := i) (by simp [hm])
    rw [surcharge_of_read ho fun h => absurd h hmode, compareReg_cycles]
  case bit m hm ho | inc m hm ho | dec m hm ho | sta m hm ho | stx m hm ho | sty m hm ho =>
    have hrel : i.mode ≠ .rel := (congrArg Operand.mode ho).trans_ne (memMode_ne_rel m)
    rw [surcharge_of_pageCross_none (pageCross_eq_none hrel (by simp [hm]))]
    simp
  case asl t hm ho | lsr t hm ho | rol t hm ho | ror t hm ho =>
    have hrel : i.mode ≠ .rel := (congrArg Operand.mode ho).trans_ne (target_mode_ne_rel t)
    rw [surcharge_of_pageCross_none (pageCross_eq_none hrel (by simp [hm])), shift_cycles, Nat.add_zero]
  case branch ho =>
    rw [branch_cycles, surcharge_of_branch ho, baseCycles_of_branch ho]
    split
    case isTrue => split <;> rfl
    case isFalse => rfl
  all_goals rw [surcharge_of_pageCross_none rfl, Nat.add_zero]
  case brk => rw [charge_cycles, trapEntry_cycles]; rfl
  case rti => rw [charge_cycles, trapReturn_cycles]; rfl
  all_goals rfl

/-- A fetch changes nothing the surcharge depends on. -/
theorem surcharge_setBus (i : Instr) (s : State) (l : List Access) : surcharge i (s.setBus l) = surcharge i s := by
  have hcrossed (m : MemMode) : (resolve m (s.setBus l)).crossed = (resolve m s).crossed := resolve_twin_crossed s l s.p m
  unfold surcharge
  cases i.operand with
  | mem m =>
    cases i.pageCross with
    | read => dsimp only; rw [hcrossed]
    | none | branch => rfl
  | imp | acc | imm | jump | ind | rel => cases i.pageCross <;> rfl

/-- Settles O55: the fetch charges nothing, and the meaning of the instruction fetched charges both parts. -/
theorem cyclesAdvanceByBaseAndSurcharge : Obligations.CyclesAdvanceByBaseAndSurcharge := by
  intro s t i u hfetch hstep
  obtain ⟨j, l, hj, hexec⟩ := step_next hstep
  cases hfetch.symm.trans hj
  obtain ⟨f, hf, he⟩ := exec_meaning i
  cases (he (s.setBus l)).symm.trans hexec
  rw [hf.cycles, surcharge_setBus, State.setBus_cycles]

end Sys2Proof.Machine
end

section
/-! SUPPORT. The `reset` transaction and the reset state (70_reset_and_hazards.md R702, R703). -/

namespace Sys2Proof.Machine

theorem resetTransaction_sp (s : State) : (resetTransaction s).sp = s.sp - 3#8 := rfl

theorem resetTransaction_pc (s : State) :
    (resetTransaction s).pc = wordOf (s.mem.read 0xFFFD) (s.mem.read 0xFFFC) := rfl

theorem resetTransaction_bus (s : State) : (resetTransaction s).bus = [.read 0xFFFC#16, .read 0xFFFD#16] := rfl

/-- Settles O59: SP as a number, and PC from the two bytes of the vector. -/
theorem resetTransactionLoadsTheVector : Obligations.ResetTransactionLoadsTheVector := by
  intro s
  refine ⟨?sp, ?pc, rfl, rfl, rfl, rfl, rfl, rfl, resetTransaction_bus s⟩
  case sp => rw [resetTransaction_sp, BitVec.toNat_sub']; rfl
  case pc => rw [resetTransaction_pc, wordOf_toNat]

/-- Settles O60: the vector of empty memory is zero. -/
theorem resetStateIsResetOfPowerOn : Obligations.ResetStateIsResetOfPowerOn := rfl

/-- Settles O14: reset leaves memory as it was, and the host writes one byte. -/
theorem resetAndHostWriteKeepTheInvariant : Obligations.ResetAndHostWriteKeepTheInvariant := by
  refine fun s a v hs => ⟨?reset, Memory.wf_write hs a v⟩
  rwa [State.Inv, resetTransaction_mem]

/-- Settles O13: the reset state is the power-on state, whose memory lists nothing, after a reset. -/
theorem resetHasTheInvariant : Obligations.ResetHasTheInvariant := by
  rw [Obligations.ResetHasTheInvariant, resetStateIsResetOfPowerOn]
  exact (resetAndHostWriteKeepTheInvariant State.powerOn 0#16 0#8 rfl).1

end Sys2Proof.Machine
end
